-- ==== Sys2Proof/Word.lean ====
section
/-! DEFINITION. The words and the names every other file uses: register words, the three channels, the register kinds,
the two polarities, the four commands, and a record with one entry per channel. -/

namespace Sys2Proof

/-- The value of a register access (20_memory R42: every access moves exactly 32 bits). -/
abbrev Word := BitVec 32

/-- The width of the counter, interval and match registers (00_scope R3, `CNT_W`). -/
abbrev Half := BitVec 16

/-- A byte lane of the register region (20_memory R44), and the width of the command word (30_encoding R67). -/
abbrev Byte := BitVec 8

/-- Channel index 0, 1 or 2 (00_scope R3, `N_CH` = 3). -/
inductive Chan where
  | c0 | c1 | c2
  deriving DecidableEq, Repr

/-- The channel's number, as it stands in addresses and command words. -/
def Chan.toNat : Chan → Nat
  | .c0 => 0
  | .c1 => 1
  | .c2 => 2

/-- The channel with a number; there is none with number 3 or more (30_encoding R67: 3 is reserved). -/
def Chan.ofNat? : Nat → Option Chan
  | 0 => some .c0
  | 1 => some .c1
  | 2 => some .c2
  | _ => none

/-- The seven modelled register kinds (10_state R11 to R17), by the names of 30_encoding R61. -/
inductive Reg where
  | clkCtrl | cntCtrl | counterValue | interval | match1 | match2 | match3
  deriving DecidableEq, Repr

/-- The four register kinds that exist in the address map and "have no modelled state" (10_state R18). Which kinds these are
goes by name, whatever number a kind table gives them: DESIGN CHOICE (log 19), open in the spec under a `KIND_OF` other than
the default. Unsafe under such a table. -/
inductive DeadReg where
  | irqStatus | irqEnable | eventCtrl | eventReg
  deriving DecidableEq, Repr

/-- The 11 register kinds (30_encoding R61). -/
inductive Kind where
  | reg (r : Reg)
  | dead (d : DeadReg)
  deriving DecidableEq, Repr

/-- All 11 kinds, in the order of 30_encoding R61. -/
def Kind.all : List Kind :=
  [.reg .clkCtrl, .reg .cntCtrl, .reg .counterValue, .reg .interval, .reg .match1, .reg .match2, .reg .match3,
   .dead .irqStatus, .dead .irqEnable, .dead .eventCtrl, .dead .eventReg]

/-- The latched polarity and the polarity argument (10_state R22, 30_encoding R67: 0 normal, 1 inverted). -/
inductive Polarity where
  | normal | inverted
  deriving DecidableEq, Repr

/-- The four operations (30_encoding R67, field `op`). -/
inductive Command where
  | configure | enable | disable | setPolarity
  deriving DecidableEq, Repr

/-- One entry for each of the three channels: "each has its own registers, clock gate, sequencer and timer"
(60_exceptions R191). -/
structure PerChan (α : Type) where
  c0 : α
  c1 : α
  c2 : α
  deriving DecidableEq, Repr

/-- The entry of a channel. -/
def PerChan.get {α : Type} (p : PerChan α) : Chan → α
  | .c0 => p.c0
  | .c1 => p.c1
  | .c2 => p.c2

/-- The record with one channel's entry replaced. -/
def PerChan.set {α : Type} (p : PerChan α) (ch : Chan) (a : α) : PerChan α :=
  match ch with
  | .c0 => { p with c0 := a }
  | .c1 => { p with c1 := a }
  | .c2 => { p with c2 := a }

/-- The record with the same entry for every channel. -/
def PerChan.const {α : Type} (a : α) : PerChan α := { c0 := a, c1 := a, c2 := a }

end Sys2Proof
end

