-- ==== Sys2Proof/Config.lean ====
section
/-! DEFINITION. The parameters of the hardware (00_scope R3, 10_state R32, and the closing list of 92_eei_decisions):
what the spec leaves to the platform or to the implementation. A `Config` is carried by the machine's state and no step
changes it (log 1), so a statement over every state is a statement over every choice of these parameters. -/

namespace Sys2Proof

/-- Bit positions in `CLK_CTRL` (parameter `LAYOUT.clk`, 30_encoding R63): `PS_EN`, the lowest bit of the four-bit field
`PS_V` (`PS_SHIFT`), and `C_SRC`. The further bit `EX_E` is plain storage and needs no position here (10_state R11). -/
structure ClkLayout where
  psEn : Nat
  psShift : Nat
  cSrc : Nat
  deriving DecidableEq, Repr

/-- Bit positions of the seven fields of `CNT_CTRL` (parameter `LAYOUT.cnt`, 30_encoding R64). -/
structure CntLayout where
  dis : Nat
  int : Nat
  dec : Nat
  matchEn : Nat
  rst : Nat
  waveDis : Nat
  wavePol : Nat
  deriving DecidableEq, Repr

/-- The positions of the seven fields as a list, in the order of 30_encoding R64. -/
def CntLayout.bits (l : CntLayout) : List Nat :=
  [l.dis, l.int, l.dec, l.matchEn, l.rst, l.waveDis, l.wavePol]

/-- The parameters, one field for each row of 00_scope R3 marked "parameter".
* `base`: `BASE`, the region's base address, from the platform.
* `kindOf`: `KIND_OF`, the table of the 11 kinds indexed by kind number (decision D1).
* `clk`, `cnt`: `LAYOUT` (decision D2).
* `clkImplMask`, `cntImplMask`: the implemented bits of the two control registers (decision D3).
* `waveIdle`: `WAVE_IDLE`, the pin's level while the waveform is disabled (decision D14).
* `extClk`: `ext_clk[ch]`, whether the channel's clock source is the external, dedicated one. -/
structure Config where
  base : Nat
  kindOf : List Kind
  clk : ClkLayout
  cnt : CntLayout
  clkImplMask : Word
  cntImplMask : Word
  waveIdle : Bool
  extClk : PerChan Bool
  deriving DecidableEq, Repr

/-- The defaults: kind table of 30_encoding R61 and layouts of R63, R64 (general knowledge, G1 to G3; logs 2, 3), masks
0x7F (D3; log 4), `WAVE_IDLE` 0 (D14), and, where the spec gives no default, `BASE` 0 and internal clocks (log 5). -/
def Config.default : Config where
  base := 0
  kindOf := Kind.all
  clk := { psEn := 0, psShift := 1, cSrc := 5 }
  cnt := { dis := 0, int := 1, dec := 2, matchEn := 3, rst := 4, waveDis := 5, wavePol := 6 }
  clkImplMask := 0x7F
  cntImplMask := 0x7F
  waveIdle := false
  extClk := PerChan.const false

/-- "the 11 numbers are distinct and in 0..10" (30_encoding R61): a table of 11 entries without repeats, in which every
kind stands. -/
abbrev Config.KindsOk (c : Config) : Prop :=
  c.kindOf.length = 11 ∧ c.kindOf.Nodup ∧ ∀ k ∈ Kind.all, k ∈ c.kindOf

/-- 30_encoding R66 for `CLK_CTRL`: two single bits and four adjacent bits, not overlapping, inside the mask. -/
abbrev Config.ClkOk (c : Config) : Prop :=
  c.clk.psEn ≠ c.clk.cSrc ∧
  (c.clk.psEn < c.clk.psShift ∨ c.clk.psShift + 4 ≤ c.clk.psEn) ∧
  (c.clk.cSrc < c.clk.psShift ∨ c.clk.psShift + 4 ≤ c.clk.cSrc) ∧
  c.clkImplMask.getLsbD c.clk.psEn = true ∧
  c.clkImplMask.getLsbD c.clk.cSrc = true ∧
  ∀ i < 4, c.clkImplMask.getLsbD (c.clk.psShift + i) = true

/-- 30_encoding R66 for `CNT_CTRL`: seven distinct single bits inside the mask. -/
abbrev Config.CntOk (c : Config) : Prop :=
  c.cnt.bits.Nodup ∧ ∀ b ∈ c.cnt.bits, c.cntImplMask.getLsbD b = true

/-- Well-formed parameters: "the only properties of it the rules of this spec rely on" (30_encoding R61, R66), and a
word-aligned `BASE` (00_scope R3). That both masks lie inside bits 31:0 is their type. -/
abbrev Config.WellFormed (c : Config) : Prop :=
  c.base % 4 = 0 ∧ c.KindsOk ∧ c.ClkOk ∧ c.CntOk

/-- The number of a register kind in the address formula (30_encoding R60, R61). -/
def Config.kindNum (c : Config) (k : Kind) : Nat := c.kindOf.idxOf k

end Sys2Proof
end

