-- ==== Sys2Proof/Machine/Flags.lean ====
section
/-! DEFINITION. Fields of the two control registers by name, and the pure parts of the timer channel: prescaler, interval
counter, match comparator and waveform phase, output polarity mux (41_timer_core R113 to R117). -/

namespace Sys2Proof.Machine

/-! ## Bits of a register -/

/-- The mask `F_M` of a one-bit field at a position. -/
def bitMask (i : Nat) : Word := BitVec.twoPow 32 i

/-- The bit at a position. -/
def testBit (w : Word) (i : Nat) : Bool := w.getLsbD i

/-- The word with the bit at a position set, every other bit unchanged. -/
def setBit (w : Word) (i : Nat) : Word := w ||| bitMask i

/-- The word with the bit at a position cleared, every other bit unchanged. -/
def clearBit (w : Word) (i : Nat) : Word := w &&& ~~~(bitMask i)

/-- The word with the bit at a position set or cleared. -/
def putBit (w : Word) (i : Nat) (b : Bool) : Word := if b then setBit w i else clearBit w i

/-! ## Fields of `CLK_CTRL` (30_encoding R63) -/

/-- The mask `PS_V_M` of the prescale-value field: four adjacent bits from `PS_SHIFT`. -/
def psVMask (c : Config) : Word := 0xF#32 <<< c.clk.psShift

/-- The prescale code `PS_V`, 0 to 15. -/
def psV (c : Config) (w : Word) : Nat := ((w >>> c.clk.psShift) &&& 0xF#32).toNat

/-- The prescale-enable bit `PS_EN`. -/
def psEn (c : Config) (w : Word) : Bool := testBit w c.clk.psEn

/-! ## Fields of `CNT_CTRL` (30_encoding R64) -/

/-- `DIS`: 1 holds the counter. -/
def dis (c : Config) (w : Word) : Bool := testBit w c.cnt.dis
/-- `INT`: interval mode. -/
def int (c : Config) (w : Word) : Bool := testBit w c.cnt.int
/-- `DEC`: 1 would count down. -/
def dec (c : Config) (w : Word) : Bool := testBit w c.cnt.dec
/-- `MATCH`: match enable. -/
def matchEn (c : Config) (w : Word) : Bool := testBit w c.cnt.matchEn
/-- `RST`: the pending reset request. -/
def rst (c : Config) (w : Word) : Bool := testBit w c.cnt.rst
/-- `WAVE_DIS`: 1 disconnects the waveform. -/
def waveDis (c : Config) (w : Word) : Bool := testBit w c.cnt.waveDis
/-- `WAVE_POL`: 1 is the normal, active-high mapping. -/
def wavePol (c : Config) (w : Word) : Bool := testBit w c.cnt.wavePol

/-- The admitted counting mode: interval mode, counting up (41_timer_core R114). -/
def admittedMode (c : Config) (cntCtrl : Word) : Bool := int c cntCtrl && !dec c cntCtrl

/-! ## The timer's pure functions -/

/-- The divisor: 1 with the prescaler off, `2^(PS_V + 1)` with it on (41_timer_core R113). -/
def divisor (c : Config) (clkCtrl : Word) : Nat :=
  if psEn c clkCtrl then 2 ^ (psV c clkCtrl + 1) else 1

/-- The prescaler at a clock edge: whether the edge is a count tick, and the new phase counter (41_timer_core R113). -/
def prescalerTick (c : Config) (clkCtrl : Word) (psCnt : Half) : Bool × Half :=
  if psCnt.toNat + 1 ≥ divisor c clkCtrl then (true, 0) else (false, psCnt + 1)

/-- Whether a count tick wraps the counter: equality with the interval, or 16-bit overflow (41_timer_core R115). -/
def counterWraps (counter interval : Half) : Bool := counter == interval || counter == 65535#16

/-- The counter after a count tick (41_timer_core R115). -/
def counterNext (counter interval : Half) : Half := if counterWraps counter interval then 0 else counter + 1

/-- The waveform phase after the counter has been stored: set at a start of period, cleared by the match event, which
wins (41_timer_core R116). -/
def phaseUpdate (matchEnabled : Bool) (match1 counter' : Half) (start active : Bool) : Bool :=
  if matchEnabled && counter' == match1 then false else if start then true else active

/-- The output polarity mux (41_timer_core R117). -/
def waveMux (c : Config) (cntCtrl : Word) (active : Bool) : Bool :=
  if waveDis c cntCtrl then c.waveIdle else if wavePol c cntCtrl then active else !active

end Sys2Proof.Machine
end

