-- ==== Sys2Proof/Machine/Operands.lean ====
section
/-! DEFINITION. The arithmetic of the commands: nanoseconds to ticks, the prescaler exponent, the thresholds, the values
written to the two control registers (42_configure R131 to R135, R139; 43_lifecycle R163, R166), and the contract of
CONFIGURE's operands (43_lifecycle R160). -/

namespace Sys2Proof.Machine

/-! ## Nanoseconds to ticks, exponent, thresholds -/

/-- `ticks(ns, rate_hz) = floor(ns * rate_hz / 1_000_000_000)`, exactly (42_configure R131). -/
def ticks (ns rateHz : Nat) : Nat := ns * rateHz / 1000000000

/-- The number of bits needed to write a number; 0 for 0 (00_scope section 5). -/
def bitlen (n : Nat) : Nat := if n = 0 then 0 else Nat.log2 n + 1

/-- The prescaler exponent `max(0, bitlen(P) - 16)` (42_configure R132). -/
def exponent (p : Nat) : Nat := bitlen p - 16

/-- `(clocks >> e) & 0xFFFF` (42_configure R134). -/
def threshold (clocks e : Nat) : Half := BitVec.ofNat 16 ((clocks >>> e) &&& 0xFFFF)

/-! ## Values written to `CLK_CTRL` and `CNT_CTRL` -/

/-- The clock-control value of CONFIGURE step 4 (42_configure R133). -/
def clkval (c : Config) (y : Word) (e : Nat) (ext : Bool) : Word :=
  let y1 := y &&& ~~~(bitMask c.clk.psEn ||| psVMask c)
  let y2 := if e = 0 then y1 else y1 ||| bitMask c.clk.psEn ||| (BitVec.ofNat 32 (e - 1) <<< c.clk.psShift)
  putBit y2 c.clk.cSrc ext

/-- The quiesce value of CONFIGURE step 1 (42_configure R139). -/
def quiesceVal (c : Config) (x0 : Word) : Word := setBit x0 c.cnt.dis

/-- The counter-control value of CONFIGURE step 7 (42_configure R135). -/
def cntval (c : Config) (x0 : Word) (p : Polarity) : Word :=
  let v := clearBit x0 c.cnt.dec
  let v := setBit (setBit (setBit v c.cnt.int) c.cnt.rst) c.cnt.matchEn
  putBit v c.cnt.wavePol (p == .normal)

/-- ENABLE's written value `(X & ~(DIS_M | WAVE_DIS_M)) | RST_M` (43_lifecycle R163). -/
def enableVal (c : Config) (x : Word) : Word :=
  setBit (clearBit (clearBit x c.cnt.dis) c.cnt.waveDis) c.cnt.rst

/-- DISABLE's written value `X | DIS_M | WAVE_DIS_M` (43_lifecycle R166). -/
def disableVal (c : Config) (x : Word) : Word := setBit (setBit x c.cnt.dis) c.cnt.waveDis

/-! ## The contract of CONFIGURE's operands (43_lifecycle R160, 30_encoding R70 d) -/

/-- "if duty_ns < 0: refuse": the duty is inside the contract. -/
def dutyOk (dutyNs : Word) : Bool := !(dutyNs.toInt < 0)

/-- "if rate_hz = 0: refuse": the rate is inside the contract. -/
def rateOk (rateHz : Word) : Bool := rateHz != 0

/-- "if period_ns >= 0 and ticks(period_ns, rate_hz) >= 2^32: refuse": the prescale code is defined. -/
def periodOk (periodNs rateHz : Word) : Bool :=
  periodNs.toInt < 0 || ticks periodNs.toNat rateHz.toNat < 2 ^ 32

end Sys2Proof.Machine
end

