-- ==== Sys2Proof/Syntax.lean ====
section
/-! DEFINITION. The instructions: one constructor per row of spec/opcode_table.json (30_encoding R74). A row `RD.<NAME>_<ch>`
or `WR.<NAME>_<ch>` names its register and channel and so has no channel operand; `WR` rows carry the 32-bit data word. -/

namespace Sys2Proof

/-- One operation presented to the block: a raw bus access (40_register_access R80), a command (43_lifecycle R160), the
pseudo-operation TEARDOWN (R170), or the environment's clock edge (41_timer_core R110). -/
inductive Instr where
  | rdClkCtrlCh0
  | rdClkCtrlCh1
  | rdClkCtrlCh2
  | rdCntCtrlCh0
  | rdCntCtrlCh1
  | rdCntCtrlCh2
  | rdCounterValueCh0
  | rdCounterValueCh1
  | rdCounterValueCh2
  | rdIntervalCh0
  | rdIntervalCh1
  | rdIntervalCh2
  | rdMatch1Ch0
  | rdMatch1Ch1
  | rdMatch1Ch2
  | rdMatch2Ch0
  | rdMatch2Ch1
  | rdMatch2Ch2
  | rdMatch3Ch0
  | rdMatch3Ch1
  | rdMatch3Ch2
  | rdIrqStatusCh0
  | rdIrqStatusCh1
  | rdIrqStatusCh2
  | rdIrqEnableCh0
  | rdIrqEnableCh1
  | rdIrqEnableCh2
  | rdEventCtrlCh0
  | rdEventCtrlCh1
  | rdEventCtrlCh2
  | rdEventRegCh0
  | rdEventRegCh1
  | rdEventRegCh2
  | wrClkCtrlCh0 (v : Word)
  | wrClkCtrlCh1 (v : Word)
  | wrClkCtrlCh2 (v : Word)
  | wrCntCtrlCh0 (v : Word)
  | wrCntCtrlCh1 (v : Word)
  | wrCntCtrlCh2 (v : Word)
  | wrCounterValueCh0 (v : Word)
  | wrCounterValueCh1 (v : Word)
  | wrCounterValueCh2 (v : Word)
  | wrIntervalCh0 (v : Word)
  | wrIntervalCh1 (v : Word)
  | wrIntervalCh2 (v : Word)
  | wrMatch1Ch0 (v : Word)
  | wrMatch1Ch1 (v : Word)
  | wrMatch1Ch2 (v : Word)
  | wrMatch2Ch0 (v : Word)
  | wrMatch2Ch1 (v : Word)
  | wrMatch2Ch2 (v : Word)
  | wrMatch3Ch0 (v : Word)
  | wrMatch3Ch1 (v : Word)
  | wrMatch3Ch2 (v : Word)
  | wrIrqStatusCh0 (v : Word)
  | wrIrqStatusCh1 (v : Word)
  | wrIrqStatusCh2 (v : Word)
  | wrIrqEnableCh0 (v : Word)
  | wrIrqEnableCh1 (v : Word)
  | wrIrqEnableCh2 (v : Word)
  | wrEventCtrlCh0 (v : Word)
  | wrEventCtrlCh1 (v : Word)
  | wrEventCtrlCh2 (v : Word)
  | wrEventRegCh0 (v : Word)
  | wrEventRegCh1 (v : Word)
  | wrEventRegCh2 (v : Word)
  | configure (ch : Chan) (dutyNs periodNs rateHz : Word)
  | enable (ch : Chan)
  | disable (ch : Chan)
  | setPolarity (ch : Chan) (p : Polarity)
  | teardown
  | edge (ch : Chan)
  deriving DecidableEq, Repr

end Sys2Proof
end

