-- ==== Sys2Proof/Decode.lean ====
section
/-! DEFINITION. What stands at the block's ports (transaction words, command words, the environment's moves), its decoding
into an instruction, total on any word and rejecting by name, and the encoder. Formats T and C are those of 30_encoding
R62 and R67; the block fetches no instruction from a memory (20_memory R52). -/

namespace Sys2Proof

/-! ## Items of a run -/

/-- The width of a raw access. Only the 32-bit one reaches a register (20_memory R42, R43). -/
inductive AccessWidth where
  | byte | half | word | double
  deriving DecidableEq, Repr

/-- Moves that are no operation of the block: they say what the environment answers or which agent moves next.
* `clkFail ch`: the environment will answer the next clock-enable handshake of the channel with failure
  (30_encoding R71, `CLKFAIL`).
* `micro ch`: the sequencer of the channel takes its next micro-step, if it is busy (00_scope R4, R6).
* `await ch`: the sequencer of the channel runs until it is idle (30_encoding R71: a command line is complete when the
  sequencer is `IDLE` again). -/
inductive Cue where
  | clkFail (ch : Chan)
  | micro (ch : Chan)
  | await (ch : Chan)
  deriving DecidableEq, Repr

/-- One item of a run (00_scope R6, 30_encoding R71), as it stands at the ports. `bus` is a raw access: its width, the
9-bit transaction word of R62 and the data word, which a read ignores. `command` is a command word of R67 with the three
operand ports of R68. `teardown` and `edge` have no encoding (R74). -/
inductive Item where
  | bus (width : AccessWidth) (tw : BitVec 9) (data : Word)
  | command (cw : Byte) (dutyNs periodNs rateHz : Word)
  | teardown
  | edge (ch : Chan)
  | cue (q : Cue)
  deriving DecidableEq, Repr

/-- What an item decodes to: an operation, a move of the environment, an access that reaches no register
(30_encoding R70 a), or a reserved command word (R70 c). -/
inductive Decoded where
  | instr (i : Instr)
  | cue (q : Cue)
  | badAccess (off : Byte)
  | reservedCommand (cw : Byte)
  deriving DecidableEq, Repr

/-! ## Rows of the opcode table by register and channel -/

/-- The row `RD.<NAME>_<ch>` of a register kind and a channel. -/
def Instr.ofRead : Kind → Chan → Instr
  | .reg .clkCtrl, .c0 => .rdClkCtrlCh0
  | .reg .clkCtrl, .c1 => .rdClkCtrlCh1
  | .reg .clkCtrl, .c2 => .rdClkCtrlCh2
  | .reg .cntCtrl, .c0 => .rdCntCtrlCh0
  | .reg .cntCtrl, .c1 => .rdCntCtrlCh1
  | .reg .cntCtrl, .c2 => .rdCntCtrlCh2
  | .reg .counterValue, .c0 => .rdCounterValueCh0
  | .reg .counterValue, .c1 => .rdCounterValueCh1
  | .reg .counterValue, .c2 => .rdCounterValueCh2
  | .reg .interval, .c0 => .rdIntervalCh0
  | .reg .interval, .c1 => .rdIntervalCh1
  | .reg .interval, .c2 => .rdIntervalCh2
  | .reg .match1, .c0 => .rdMatch1Ch0
  | .reg .match1, .c1 => .rdMatch1Ch1
  | .reg .match1, .c2 => .rdMatch1Ch2
  | .reg .match2, .c0 => .rdMatch2Ch0
  | .reg .match2, .c1 => .rdMatch2Ch1
  | .reg .match2, .c2 => .rdMatch2Ch2
  | .reg .match3, .c0 => .rdMatch3Ch0
  | .reg .match3, .c1 => .rdMatch3Ch1
  | .reg .match3, .c2 => .rdMatch3Ch2
  | .dead .irqStatus, .c0 => .rdIrqStatusCh0
  | .dead .irqStatus, .c1 => .rdIrqStatusCh1
  | .dead .irqStatus, .c2 => .rdIrqStatusCh2
  | .dead .irqEnable, .c0 => .rdIrqEnableCh0
  | .dead .irqEnable, .c1 => .rdIrqEnableCh1
  | .dead .irqEnable, .c2 => .rdIrqEnableCh2
  | .dead .eventCtrl, .c0 => .rdEventCtrlCh0
  | .dead .eventCtrl, .c1 => .rdEventCtrlCh1
  | .dead .eventCtrl, .c2 => .rdEventCtrlCh2
  | .dead .eventReg, .c0 => .rdEventRegCh0
  | .dead .eventReg, .c1 => .rdEventRegCh1
  | .dead .eventReg, .c2 => .rdEventRegCh2

/-- The row `WR.<NAME>_<ch>` of a register kind and a channel, with its data word. -/
def Instr.ofWrite : Kind → Chan → Word → Instr
  | .reg .clkCtrl, .c0, v => .wrClkCtrlCh0 v
  | .reg .clkCtrl, .c1, v => .wrClkCtrlCh1 v
  | .reg .clkCtrl, .c2, v => .wrClkCtrlCh2 v
  | .reg .cntCtrl, .c0, v => .wrCntCtrlCh0 v
  | .reg .cntCtrl, .c1, v => .wrCntCtrlCh1 v
  | .reg .cntCtrl, .c2, v => .wrCntCtrlCh2 v
  | .reg .counterValue, .c0, v => .wrCounterValueCh0 v
  | .reg .counterValue, .c1, v => .wrCounterValueCh1 v
  | .reg .counterValue, .c2, v => .wrCounterValueCh2 v
  | .reg .interval, .c0, v => .wrIntervalCh0 v
  | .reg .interval, .c1, v => .wrIntervalCh1 v
  | .reg .interval, .c2, v => .wrIntervalCh2 v
  | .reg .match1, .c0, v => .wrMatch1Ch0 v
  | .reg .match1, .c1, v => .wrMatch1Ch1 v
  | .reg .match1, .c2, v => .wrMatch1Ch2 v
  | .reg .match2, .c0, v => .wrMatch2Ch0 v
  | .reg .match2, .c1, v => .wrMatch2Ch1 v
  | .reg .match2, .c2, v => .wrMatch2Ch2 v
  | .reg .match3, .c0, v => .wrMatch3Ch0 v
  | .reg .match3, .c1, v => .wrMatch3Ch1 v
  | .reg .match3, .c2, v => .wrMatch3Ch2 v
  | .dead .irqStatus, .c0, v => .wrIrqStatusCh0 v
  | .dead .irqStatus, .c1, v => .wrIrqStatusCh1 v
  | .dead .irqStatus, .c2, v => .wrIrqStatusCh2 v
  | .dead .irqEnable, .c0, v => .wrIrqEnableCh0 v
  | .dead .irqEnable, .c1, v => .wrIrqEnableCh1 v
  | .dead .irqEnable, .c2, v => .wrIrqEnableCh2 v
  | .dead .eventCtrl, .c0, v => .wrEventCtrlCh0 v
  | .dead .eventCtrl, .c1, v => .wrEventCtrlCh1 v
  | .dead .eventCtrl, .c2, v => .wrEventCtrlCh2 v
  | .dead .eventReg, .c0, v => .wrEventRegCh0 v
  | .dead .eventReg, .c1, v => .wrEventRegCh1 v
  | .dead .eventReg, .c2, v => .wrEventRegCh2 v

/-! ## Addresses -/

/-- The byte offset `4 * (3 * k + ch)` of a register (30_encoding R60). -/
def Config.off (c : Config) (k : Kind) (ch : Chan) : Nat := 4 * (3 * c.kindNum k + ch.toNat)

/-- The byte address `BASE + off(k, ch)` of a register (20_memory R40). -/
def Config.addr (c : Config) (k : Kind) (ch : Chan) : Nat := c.base + c.off k ch

/-- The size of the region in bytes (20_memory R41). -/
def regionBytes : Nat := 0x84

/-- The register at a byte offset (30_encoding R60: "it names a register iff `off mod 4 = 0` and `off < 0x84`"). -/
def Config.locate (c : Config) (off : Nat) : Option (Kind × Chan) :=
  if off % 4 = 0 ∧ off < regionBytes then
    match c.kindOf[off / 4 / 3]?, Chan.ofNat? (off / 4 % 3) with
    | some k, some ch => some (k, ch)
    | _, _ => none
  else none

/-! ## Format T, the bus transaction (30_encoding R62) -/

/-- The transaction word: bit 8 is `we`, bits 7:0 are the byte offset. -/
def transactionWord (we : Bool) (off : Nat) : BitVec 9 := BitVec.ofBool we ++ BitVec.ofNat 8 off

/-- Bit 8 of a transaction word. -/
def twWrite (tw : BitVec 9) : Bool := tw.getLsbD 8

/-- Bits 7:0 of a transaction word. -/
def twOffset (tw : BitVec 9) : Byte := tw.extractLsb' 0 8

/-- Decoding a raw access (40_register_access R80, 20_memory R43). The kind table turns the offset's kind number into a
name, and the name alone decides between an access and a refusal; R80 tests the number, `k >= 7`. Under the default table
the two agree; under another table the name is the model's DESIGN CHOICE (log 19), unsafe there. -/
def decodeAccess (c : Config) (width : AccessWidth) (tw : BitVec 9) (data : Word) : Decoded :=
  match width, c.locate (twOffset tw).toNat with
  | .word, some (k, ch) =>
    .instr (if twWrite tw then Instr.ofWrite k ch data else Instr.ofRead k ch)
  | _, _ => .badAccess (twOffset tw)

/-! ## Format C, the command word (30_encoding R67) -/

/-- The operation field `op`, bits 3:2. -/
def Command.code : Command → BitVec 2
  | .configure => 0b00
  | .enable => 0b01
  | .disable => 0b10
  | .setPolarity => 0b11

/-- The operation with a code. -/
def Command.ofCode (b : BitVec 2) : Command :=
  if b = 0b00 then .configure else if b = 0b01 then .enable else if b = 0b10 then .disable else .setPolarity

/-- The polarity argument as the bit `p`: 0 normal, 1 inverted. -/
def Polarity.bit : Polarity → Bool
  | .normal => false
  | .inverted => true

/-- The polarity a bit `p` stands for. -/
def Polarity.ofBit : Bool → Polarity
  | false => .normal
  | true => .inverted

/-- The command word with zero bits 7:5, `p`, `op` and `ch`. -/
def commandWord (p : Bool) (op : Command) (ch : Chan) : Byte :=
  0#3 ++ (BitVec.ofBool p ++ (op.code ++ BitVec.ofNat 2 ch.toNat))

/-- Bits 7:5 of a command word. -/
def cwZero (cw : Byte) : BitVec 3 := cw.extractLsb' 5 3

/-- Bit 4 of a command word. -/
def cwPolarity (cw : Byte) : Bool := cw.getLsbD 4

/-- Bits 3:2 of a command word. -/
def cwOp (cw : Byte) : Command := Command.ofCode (cw.extractLsb' 2 2)

/-- Bits 1:0 of a command word. -/
def cwChan (cw : Byte) : Option Chan := Chan.ofNat? (cw.extractLsb' 0 2).toNat

/-- Decoding a command word with its operand ports (43_lifecycle R160, first check; 30_encoding R70 c). -/
def decodeCommand (cw : Byte) (dutyNs periodNs rateHz : Word) : Decoded :=
  if cwZero cw = 0 ∧ (cwPolarity cw = false ∨ cwOp cw = .setPolarity) then
    match cwChan cw, cwOp cw with
    | none, _ => .reservedCommand cw
    | some ch, .configure => .instr (.configure ch dutyNs periodNs rateHz)
    | some ch, .enable => .instr (.enable ch)
    | some ch, .disable => .instr (.disable ch)
    | some ch, .setPolarity => .instr (.setPolarity ch (Polarity.ofBit (cwPolarity cw)))
  else .reservedCommand cw

/-- Decoding an item, total on every word. -/
def decodeItem (c : Config) : Item → Decoded
  | .bus width tw data => decodeAccess c width tw data
  | .command cw d p r => decodeCommand cw d p r
  | .teardown => .instr .teardown
  | .edge ch => .instr (.edge ch)
  | .cue q => .cue q

/-! ## The encoder -/

/-- The item of a raw read (the data word is not used by a read and is written as 0). -/
def encodeRead (c : Config) (k : Kind) (ch : Chan) : Item :=
  .bus .word (transactionWord false (c.off k ch)) 0

/-- The item of a raw write. -/
def encodeWrite (c : Config) (k : Kind) (ch : Chan) (v : Word) : Item :=
  .bus .word (transactionWord true (c.off k ch)) v

/-- The item that presents an operation, written from the same tables (30_encoding R60, R62, R67). The operand ports are
read by CONFIGURE only (R68) and written as 0 elsewhere. -/
def encode (c : Config) : Instr → Item
  | .rdClkCtrlCh0 => encodeRead c (.reg .clkCtrl) .c0
  | .rdClkCtrlCh1 => encodeRead c (.reg .clkCtrl) .c1
  | .rdClkCtrlCh2 => encodeRead c (.reg .clkCtrl) .c2
  | .rdCntCtrlCh0 => encodeRead c (.reg .cntCtrl) .c0
  | .rdCntCtrlCh1 => encodeRead c (.reg .cntCtrl) .c1
  | .rdCntCtrlCh2 => encodeRead c (.reg .cntCtrl) .c2
  | .rdCounterValueCh0 => encodeRead c (.reg .counterValue) .c0
  | .rdCounterValueCh1 => encodeRead c (.reg .counterValue) .c1
  | .rdCounterValueCh2 => encodeRead c (.reg .counterValue) .c2
  | .rdIntervalCh0 => encodeRead c (.reg .interval) .c0
  | .rdIntervalCh1 => encodeRead c (.reg .interval) .c1
  | .rdIntervalCh2 => encodeRead c (.reg .interval) .c2
  | .rdMatch1Ch0 => encodeRead c (.reg .match1) .c0
  | .rdMatch1Ch1 => encodeRead c (.reg .match1) .c1
  | .rdMatch1Ch2 => encodeRead c (.reg .match1) .c2
  | .rdMatch2Ch0 => encodeRead c (.reg .match2) .c0
  | .rdMatch2Ch1 => encodeRead c (.reg .match2) .c1
  | .rdMatch2Ch2 => encodeRead c (.reg .match2) .c2
  | .rdMatch3Ch0 => encodeRead c (.reg .match3) .c0
  | .rdMatch3Ch1 => encodeRead c (.reg .match3) .c1
  | .rdMatch3Ch2 => encodeRead c (.reg .match3) .c2
  | .rdIrqStatusCh0 => encodeRead c (.dead .irqStatus) .c0
  | .rdIrqStatusCh1 => encodeRead c (.dead .irqStatus) .c1
  | .rdIrqStatusCh2 => encodeRead c (.dead .irqStatus) .c2
  | .rdIrqEnableCh0 => encodeRead c (.dead .irqEnable) .c0
  | .rdIrqEnableCh1 => encodeRead c (.dead .irqEnable) .c1
  | .rdIrqEnableCh2 => encodeRead c (.dead .irqEnable) .c2
  | .rdEventCtrlCh0 => encodeRead c (.dead .eventCtrl) .c0
  | .rdEventCtrlCh1 => encodeRead c (.dead .eventCtrl) .c1
  | .rdEventCtrlCh2 => encodeRead c (.dead .eventCtrl) .c2
  | .rdEventRegCh0 => encodeRead c (.dead .eventReg) .c0
  | .rdEventRegCh1 => encodeRead c (.dead .eventReg) .c1
  | .rdEventRegCh2 => encodeRead c (.dead .eventReg) .c2
  | .wrClkCtrlCh0 v => encodeWrite c (.reg .clkCtrl) .c0 v
  | .wrClkCtrlCh1 v => encodeWrite c (.reg .clkCtrl) .c1 v
  | .wrClkCtrlCh2 v => encodeWrite c (.reg .clkCtrl) .c2 v
  | .wrCntCtrlCh0 v => encodeWrite c (.reg .cntCtrl) .c0 v
  | .wrCntCtrlCh1 v => encodeWrite c (.reg .cntCtrl) .c1 v
  | .wrCntCtrlCh2 v => encodeWrite c (.reg .cntCtrl) .c2 v
  | .wrCounterValueCh0 v => encodeWrite c (.reg .counterValue) .c0 v
  | .wrCounterValueCh1 v => encodeWrite c (.reg .counterValue) .c1 v
  | .wrCounterValueCh2 v => encodeWrite c (.reg .counterValue) .c2 v
  | .wrIntervalCh0 v => encodeWrite c (.reg .interval) .c0 v
  | .wrIntervalCh1 v => encodeWrite c (.reg .interval) .c1 v
  | .wrIntervalCh2 v => encodeWrite c (.reg .interval) .c2 v
  | .wrMatch1Ch0 v => encodeWrite c (.reg .match1) .c0 v
  | .wrMatch1Ch1 v => encodeWrite c (.reg .match1) .c1 v
  | .wrMatch1Ch2 v => encodeWrite c (.reg .match1) .c2 v
  | .wrMatch2Ch0 v => encodeWrite c (.reg .match2) .c0 v
  | .wrMatch2Ch1 v => encodeWrite c (.reg .match2) .c1 v
  | .wrMatch2Ch2 v => encodeWrite c (.reg .match2) .c2 v
  | .wrMatch3Ch0 v => encodeWrite c (.reg .match3) .c0 v
  | .wrMatch3Ch1 v => encodeWrite c (.reg .match3) .c1 v
  | .wrMatch3Ch2 v => encodeWrite c (.reg .match3) .c2 v
  | .wrIrqStatusCh0 v => encodeWrite c (.dead .irqStatus) .c0 v
  | .wrIrqStatusCh1 v => encodeWrite c (.dead .irqStatus) .c1 v
  | .wrIrqStatusCh2 v => encodeWrite c (.dead .irqStatus) .c2 v
  | .wrIrqEnableCh0 v => encodeWrite c (.dead .irqEnable) .c0 v
  | .wrIrqEnableCh1 v => encodeWrite c (.dead .irqEnable) .c1 v
  | .wrIrqEnableCh2 v => encodeWrite c (.dead .irqEnable) .c2 v
  | .wrEventCtrlCh0 v => encodeWrite c (.dead .eventCtrl) .c0 v
  | .wrEventCtrlCh1 v => encodeWrite c (.dead .eventCtrl) .c1 v
  | .wrEventCtrlCh2 v => encodeWrite c (.dead .eventCtrl) .c2 v
  | .wrEventRegCh0 v => encodeWrite c (.dead .eventReg) .c0 v
  | .wrEventRegCh1 v => encodeWrite c (.dead .eventReg) .c1 v
  | .wrEventRegCh2 v => encodeWrite c (.dead .eventReg) .c2 v
  | .configure ch d p r => .command (commandWord false .configure ch) d p r
  | .enable ch => .command (commandWord false .enable ch) 0 0 0
  | .disable ch => .command (commandWord false .disable ch) 0 0 0
  | .setPolarity ch p => .command (commandWord p.bit .setPolarity ch) 0 0 0
  | .teardown => .teardown
  | .edge ch => .edge ch

/-- The items of a script line (30_encoding R71): a command line presents the command and is complete when the channel's
sequencer is `IDLE` again. -/
def scriptLine (c : Config) (i : Instr) : List Item :=
  match i with
  | .configure ch _ _ _ | .enable ch | .disable ch | .setPolarity ch _ => [encode c i, .cue (.await ch)]
  | _ => [encode c i]

/-! ## The opcode table's numbering -/

/-- The item whose bits are `w`: up to 8 bits are a command word with operand ports of zeros; otherwise the low 9 bits
are a transaction word with a data word of zeros, and higher bits are no part of it (30_encoding R62, R67). -/
def tableItem (nbits w : Nat) : Option Item :=
  if nbits ≤ 8 then
    if w < 256 then some (.command (BitVec.ofNat 8 w) 0 0 0) else none
  else
    if w < 512 then some (.bus .word (BitVec.ofNat 9 w) 0) else none

/-- The instruction the decoder reads from the bits of a row of the opcode table, whose rows "use the default `KIND_OF`"
(30_encoding R74). -/
def decodeTableWord (nbits w : Nat) : Option Instr :=
  match tableItem nbits w with
  | none => none
  | some item =>
    match decodeItem Config.default item with
    | .instr i => some i
    | _ => none

end Sys2Proof
end

