-- ==== Sys2Proof/Machine/State.lean ====
section
/-! DEFINITION. The state of the machine (10_state), as plain data, the reasons a step can stop, and the state after reset
(10_state R30). -/

namespace Sys2Proof.Machine

/-- The micro-states of a sequencer, its program counter (10_state R24). -/
inductive MicroState where
  | idle
  | cCheck | cClk | cRdCnt | cWrQuiesce | cCalcP | cRdClk | cWrClk | cCalcD | cWrInt | cWrM1 | cWrRestore
  | eClk | eRd | eWr
  | dRd | dWr | dClkoff
  | pSet
  deriving DecidableEq, Repr

/-- The 5-bit code of a micro-state (10_state R24; "not observable"). -/
def MicroState.code : MicroState → BitVec 5
  | .idle => 0 | .cCheck => 1 | .cClk => 2 | .cRdCnt => 3 | .cWrQuiesce => 4 | .cCalcP => 5 | .cRdClk => 6
  | .cWrClk => 7 | .cCalcD => 8 | .cWrInt => 9 | .cWrM1 => 10 | .cWrRestore => 11 | .eClk => 12 | .eRd => 13
  | .eWr => 14 | .dRd => 15 | .dWr => 16 | .dClkoff => 17 | .pSet => 18

/-- The result of a completed command (10_state R27, 30_encoding R69). Code 3, `HardwareFault`, is never stored. -/
inductive Status where
  | ok | invalidArgument | clockUnavailable
  deriving DecidableEq, Repr

/-- The 2-bit status code on the result port (30_encoding R69). -/
def Status.code : Status → BitVec 2
  | .ok => 0 | .invalidArgument => 1 | .clockUnavailable => 2

/-- The lifecycle phase, ghost state (10_state R23). -/
inductive Phase where
  | disabled | configured | enabled
  deriving DecidableEq, Repr

/-- The last-applied parameters (10_state R22; the exponent, not the code: 90_conflicts C3). -/
structure Applied where
  e : BitVec 5
  intervalCount : Half
  matchCount : Half
  deriving DecidableEq, Repr

/-- A sequencer: micro-state, operand latches, working registers and status (10_state R24 to R27). -/
structure Seq where
  pc : MicroState
  op : Command
  dutyNs : Word
  periodNs : Word
  rateHz : Word
  polArg : Polarity
  x0 : Word
  x : Word
  y : Word
  pclk : BitVec 64
  dclk : BitVec 64
  e : BitVec 5
  icnt : Half
  mcnt : Half
  status : Status
  deriving DecidableEq, Repr

/-- One channel: its registers, hidden timer state, channel record and sequencer (10_state R11 to R27). -/
structure Channel where
  clkCtrl : Word
  cntCtrl : Word
  counter : Half
  interval : Half
  match1 : Half
  match2 : Half
  match3 : Half
  psCnt : Half
  active : Bool
  clkOn : Bool
  pol : Polarity
  last : Option Applied
  phase : Phase
  seq : Seq
  deriving DecidableEq, Repr

/-- The direction of a bus access (10_state R29). -/
inductive Dir where
  | R | W
  deriving DecidableEq, Repr

/-- Events of the trace (10_state R29). The symbolic register name of an access is that of its kind and channel
(`symbolicName` in Machine/Ops.lean, log 15). -/
inductive Event where
  | acc (dir : Dir) (value : Word) (ch : Chan) (reg : Reg)
  | done (ch : Chan) (op : Command) (status : Status)
  | edge (ch : Chan)
  deriving DecidableEq, Repr

/-- The state of the machine.
* `cfg`: the parameters, which no step changes (10_state R32; log 1).
* `chans`: the three channels.
* `faulted`, `refused`: the sticky flags (10_state R28).
* `trace`: the event history (10_state R29).
* `script`: the run still to be consumed (00_scope R6; the model's own field, log 8).
* `clkFail`: the environment's pending answer to the next clock-enable handshake of each channel, true for failure
  (42_configure R137; the model's own field, log 11). -/
structure State where
  cfg : Config
  chans : PerChan Channel
  faulted : Bool
  refused : Bool
  trace : List Event
  script : List Item
  clkFail : PerChan Bool
  deriving DecidableEq, Repr

/-- Why the machine stops with a fault (00_scope R5). -/
inductive Fault where
  /-- `HardwareFault`, code 3: a raw access that does not reach a register, with its offset (60_exceptions R183). Raised by
  `step` on such an access. Safe: the spec calls it fatal and says nothing of what follows. -/
  | hardwareFault (off : Byte)
  /-- A step from a state with `faulted` set, which "is never a final state" and from which no rule goes on
  (00_scope R5). Raised by `step`. Safe: it only stops. -/
  | afterFault
  deriving DecidableEq, Repr

/-- Why the spec gives a step no meaning (00_scope R5; the complete list is 60_exceptions R193). -/
inductive Refusal where
  /-- An instruction without a meaning yet. Raised by no arm. Safe: it only stops. -/
  | notModelled (mnemonic : String)
  /-- A bus access to a register of kind 7 to 10. Raised by the RD and WR rows of those kinds (40_register_access R95 to
  R98). Safe: the spec refuses it. The kinds are meant by name, whatever their numbers (DESIGN CHOICE, log 19: unsafe under a
  kind table other than the default). -/
  | unmodelledKind (d : DeadReg) (ch : Chan)
  /-- A reserved command word. Raised by `step` (43_lifecycle R160, 30_encoding R70 c). Safe: the spec refuses it. -/
  | reservedCommand (cw : Byte)
  /-- CONFIGURE with `duty_ns < 0`. Raised by CONFIGURE at acceptance (43_lifecycle R160). Safe: the spec refuses it. -/
  | negativeDuty (ch : Chan)
  /-- CONFIGURE with `rate_hz = 0`. Raised by CONFIGURE at acceptance (43_lifecycle R160). Safe: the spec refuses it. -/
  | rateNotPositive (ch : Chan)
  /-- CONFIGURE with `ticks(period_ns, rate_hz) >= 2^32`. Raised by CONFIGURE at acceptance (43_lifecycle R160). Safe: the
  spec refuses it. -/
  | prescaleCodeNotDefined (ch : Chan)
  /-- A clock edge that would count with `DEC = 1` or `INT = 0`. Raised by EDGE (41_timer_core R114). Safe: the spec
  refuses it. -/
  | countingModeNotAdmitted (ch : Chan)
  /-- A step from a state with `refused` set, through which no claim may pass (00_scope R5). Raised by `step`. Safe: it
  only stops. -/
  | afterRefusal
  deriving DecidableEq, Repr

/-! ## Channels of a state -/

/-- The channel with an index. -/
def State.chan (s : State) (ch : Chan) : Channel := s.chans.get ch

/-- The state with one channel replaced. -/
def State.setChan (s : State) (ch : Chan) (c : Channel) : State := { s with chans := s.chans.set ch c }

/-! ## Reset (10_state R30, 70_reset_and_hazards R200, R201) -/

/-- A sequencer after reset: `IDLE`. The spec gives its latches, working registers and status no value; log 6 names the
values taken here. -/
def Seq.reset : Seq where
  pc := .idle
  op := .configure
  dutyNs := 0
  periodNs := 0
  rateHz := 0
  polArg := .normal
  x0 := 0
  x := 0
  y := 0
  pclk := 0
  dclk := 0
  e := 0
  icnt := 0
  mcnt := 0
  status := .ok

/-- A channel after reset, in the layout of a configuration: `CNT_CTRL` has `DIS` and `WAVE_DIS` set and all else clear. -/
def Channel.reset (cfg : Config) : Channel where
  clkCtrl := 0
  cntCtrl := setBit (setBit 0 cfg.cnt.dis) cfg.cnt.waveDis
  counter := 0
  interval := 0
  match1 := 0
  match2 := 0
  match3 := 0
  psCnt := 0
  active := true
  clkOn := false
  pol := .normal
  last := none
  phase := .disabled
  seq := Seq.reset

/-- The machine right after reset, for given parameters: nothing at its ports, an empty trace. -/
def State.resetWith (cfg : Config) : State where
  cfg := cfg
  chans := PerChan.const (Channel.reset cfg)
  faulted := false
  refused := false
  trace := []
  script := []
  clkFail := PerChan.const false

/-- The machine right after reset, with the default parameters. -/
def State.reset : State := State.resetWith Config.default

end Sys2Proof.Machine
end

