-- ==== Sys2Proof/Machine/Ops.lean ====
section
/-! DEFINITION. The named operations over the state: the trace, the script, the register bus, the clock-enable handshake,
completing a command, the failure return (this hardware's taking of an exception, 60_exceptions R185), and what a stop
leaves behind (00_scope R5). -/

namespace Sys2Proof.Machine

/-! ## Trace and script -/

/-- `trace <- trace ++ [e]` (00_scope section 5). -/
def State.record (s : State) (e : Event) : State := { s with trace := s.trace ++ [e] }

/-- The first item of the script is consumed (00_scope R6: "consumed in order"). -/
def State.consume (s : State) : State := { s with script := s.script.tail }

/-- The name of a register kind (30_encoding R61). -/
def kindName : Kind → String
  | .reg .clkCtrl => "CLK_CTRL"
  | .reg .cntCtrl => "CNT_CTRL"
  | .reg .counterValue => "COUNTER_VALUE"
  | .reg .interval => "INTERVAL"
  | .reg .match1 => "MATCH1"
  | .reg .match2 => "MATCH2"
  | .reg .match3 => "MATCH3"
  | .dead .irqStatus => "IRQ_STATUS"
  | .dead .irqEnable => "IRQ_ENABLE"
  | .dead .eventCtrl => "EVENT_CTRL"
  | .dead .eventReg => "EVENT_REG"

/-- The symbolic register name a trace event carries: the kind's name, `_` and the channel digit (30_encoding R73). -/
def symbolicName (k : Kind) (ch : Chan) : String :=
  kindName k ++ "_" ++ (match ch with | .c0 => "0" | .c1 => "1" | .c2 => "2")

/-! ## Registers of a channel -/

/-- `read_k`: the 32-bit value a read returns; a 16-bit register reads with zeros above (40_register_access R81 to R93). -/
def Channel.readReg (c : Channel) : Reg → Word
  | .clkCtrl => c.clkCtrl
  | .cntCtrl => c.cntCtrl
  | .counterValue => c.counter.setWidth 32
  | .interval => c.interval.setWidth 32
  | .match1 => c.match1.setWidth 32
  | .match2 => c.match2.setWidth 32
  | .match3 => c.match3.setWidth 32

/-- `write_k`: the masked store of a write; `COUNTER_VALUE` ignores it (40_register_access R82 to R94). -/
def Channel.writeReg (c : Channel) (cfg : Config) (r : Reg) (v : Word) : Channel :=
  match r with
  | .clkCtrl => { c with clkCtrl := v &&& cfg.clkImplMask }
  | .cntCtrl => { c with cntCtrl := v &&& cfg.cntImplMask }
  | .counterValue => c
  | .interval => { c with interval := v.setWidth 16 }
  | .match1 => { c with match1 := v.setWidth 16 }
  | .match2 => { c with match2 := v.setWidth 16 }
  | .match3 => { c with match3 := v.setWidth 16 }

/-! ## The register bus (40_register_access R80) -/

/-- `RD(k, ch)` on a modelled kind: the value read, and the state with the access in the trace. -/
def busRead (r : Reg) (ch : Chan) (s : State) : Word × State :=
  ((s.chan ch).readReg r, s.record (.acc .R ((s.chan ch).readReg r) ch r))

/-- `WR(k, ch, v)` on a modelled kind. The logged value is the one presented, not the one stored. -/
def busWrite (r : Reg) (ch : Chan) (v : Word) (s : State) : State :=
  (s.setChan ch ((s.chan ch).writeReg s.cfg r v)).record (.acc .W v ch r)

/-- The byte at a byte offset of the region: byte `i` of a register holds its bits `8i+7 : 8i` (20_memory R44). There is
none outside the region and none in a register without modelled state (10_state R18). A view for statements; no access
of this block is a byte wide. -/
def State.readByte (s : State) (off : Nat) : Option Byte :=
  match s.cfg.locate (off / 4 * 4) with
  | some (.reg r, ch) => some (((s.chan ch).readReg r).extractLsb' (8 * (off % 4)) 8)
  | _ => none

/-- The output pin of a channel, a function of the state (41_timer_core R117, 10_state R31). -/
def State.waveOut (s : State) (ch : Chan) : Bool := waveMux s.cfg (s.chan ch).cntCtrl (s.chan ch).active

/-! ## The sequencer -/

/-- The sequencer of a channel. -/
def State.seq (s : State) (ch : Chan) : Seq := (s.chan ch).seq

/-- The state with a channel's sequencer replaced. -/
def State.setSeq (s : State) (ch : Chan) (q : Seq) : State := s.setChan ch { s.chan ch with seq := q }

/-- The sequencer of a channel goes to a micro-state. -/
def State.goto (s : State) (ch : Chan) (pc : MicroState) : State := s.setSeq ch { s.seq ch with pc := pc }

/-- A command is in progress on the channel: its sequencer is not `IDLE` (10_state R24). -/
def State.busy (s : State) (ch : Chan) : Bool := (s.seq ch).pc != .idle

/-- The clock-enable handshake (42_configure R137): the environment's answer `ok`, and the state after it. A success sets
`clk_on`; a failure leaves it. The pending answer is used up, and the next one is a success unless the environment says
otherwise (30_encoding R71, `CLKFAIL`). -/
def clkEnable (ch : Chan) (s : State) : Bool × State :=
  let answered := { s with clkFail := s.clkFail.set ch false }
  if s.clkFail.get ch then (false, answered)
  else (true, answered.setChan ch { answered.chan ch with clkOn := true })

/-- Completing a command with a status (43_lifecycle R172). -/
def complete (ch : Chan) (st : Status) (s : State) : State :=
  (s.setSeq ch { s.seq ch with status := st, pc := .idle }).record (.done ch (s.seq ch).op st)

/-- The failure return of `InvalidArgument` and `ClockUnavailable` (60_exceptions R185): the status code, a `Done` event,
`IDLE`. "Nothing is saved, no mode changes, nothing is masked, control goes nowhere". There is no return operation: the
host may present any command next (R186). -/
def raiseError (ch : Chan) (err : Status) (s : State) : State := complete ch err s

/-! ## What a stop leaves behind (00_scope R5, 10_state R28) -/

/-- The state of the machine after an outcome: a fault sets `faulted`, a refusal sets `refused`, and nothing else of the
stopping step is kept (log 7). -/
def State.afterOutcome (s : State) : Host.Outcome State Fault Refusal → State
  | .next t => t
  | .fault _ => { s with faulted := true }
  | .refused _ => { s with refused := true }

end Sys2Proof.Machine
end

