-- ==== Sys2Proof/Machine/Configure.lean ====
section
/-! DEFINITION. The micro-steps of CONFIGURE (42_configure R136 to R146). Each is one atomic step of the channel's
sequencer; clock edges and steps of other channels may fall between any two of them. -/

namespace Sys2Proof.Machine

/-- `C_CHECK` (42_configure R136): a negative period is an `InvalidArgument`, before any bus access. -/
def cCheck (ch : Chan) (s : State) : State :=
  if (s.seq ch).periodNs.toInt < 0 then raiseError ch .invalidArgument s else s.goto ch .cClk

/-- `C_CLK` (R137): the clock-enable handshake; a failure is a `ClockUnavailable`. -/
def cClk (ch : Chan) (s : State) : State :=
  let (ok, t) := clkEnable ch s
  if ok then t.goto ch .cRdCnt else raiseError ch .clockUnavailable t

/-- `C_RD_CNT` (R138): step 1, first half. -/
def cRdCnt (ch : Chan) (s : State) : State :=
  let (v, t) := busRead .cntCtrl ch s
  t.setSeq ch { t.seq ch with x0 := v, pc := .cWrQuiesce }

/-- `C_WR_QUIESCE` (R139): step 1, second half, `DIS` set and every other bit as read. -/
def cWrQuiesce (ch : Chan) (s : State) : State :=
  (busWrite .cntCtrl ch (quiesceVal s.cfg (s.seq ch).x0) s).goto ch .cCalcP

/-- `C_CALC_P` (R140): steps 2 and 3, period ticks and exponent. -/
def cCalcP (ch : Chan) (s : State) : State :=
  let q := s.seq ch
  let p := ticks q.periodNs.toNat q.rateHz.toNat
  s.setSeq ch { q with pclk := BitVec.ofNat 64 p, e := BitVec.ofNat 5 (exponent p), pc := .cRdClk }

/-- `C_RD_CLK` (R141): step 4, first half. -/
def cRdClk (ch : Chan) (s : State) : State :=
  let (v, t) := busRead .clkCtrl ch s
  t.setSeq ch { t.seq ch with y := v, pc := .cWrClk }

/-- `C_WR_CLK` (R142): step 4, second half. -/
def cWrClk (ch : Chan) (s : State) : State :=
  (busWrite .clkCtrl ch (clkval s.cfg (s.seq ch).y (s.seq ch).e.toNat (s.cfg.extClk.get ch)) s).goto ch .cCalcD

/-- `C_CALC_D` (R143): steps 5 and 6, duty ticks and the two thresholds, with the same rate. -/
def cCalcD (ch : Chan) (s : State) : State :=
  let q := s.seq ch
  let d := ticks q.dutyNs.toNat q.rateHz.toNat
  s.setSeq ch { q with
    dclk := BitVec.ofNat 64 d
    icnt := threshold q.pclk.toNat q.e.toNat
    mcnt := threshold d q.e.toNat
    pc := .cWrInt }

/-- `C_WR_INT` (R144): step 6, the interval before the match. -/
def cWrInt (ch : Chan) (s : State) : State :=
  (busWrite .interval ch ((s.seq ch).icnt.setWidth 32) s).goto ch .cWrM1

/-- `C_WR_M1` (R145). -/
def cWrM1 (ch : Chan) (s : State) : State :=
  (busWrite .match1 ch ((s.seq ch).mcnt.setWidth 32) s).goto ch .cWrRestore

/-- The phase after a successful CONFIGURE (R146, 43_lifecycle R171). -/
def configuredPhase : Phase → Phase
  | .enabled => .enabled
  | .disabled | .configured => .configured

/-- `C_WR_RESTORE` (R146): step 7 in one write, the last-applied record, the phase, completion with `OK`. -/
def cWrRestore (ch : Chan) (s : State) : State :=
  let q := s.seq ch
  let t := busWrite .cntCtrl ch (cntval s.cfg q.x0 (s.chan ch).pol) s
  complete ch .ok (t.setChan ch { t.chan ch with
    last := some { e := q.e, intervalCount := q.icnt, matchCount := q.mcnt }
    phase := configuredPhase (t.chan ch).phase })

end Sys2Proof.Machine
end

