-- ==== Sys2Proof/Machine/Lifecycle.lean ====
section
/-! DEFINITION. The micro-steps of ENABLE, DISABLE and SET_POLARITY (43_lifecycle R161 to R169). -/

namespace Sys2Proof.Machine

/-- `E_CLK` (43_lifecycle R161): the clock-enable handshake; a failure is a `ClockUnavailable`. -/
def eClk (ch : Chan) (s : State) : State :=
  let (ok, t) := clkEnable ch s
  if ok then t.goto ch .eRd else raiseError ch .clockUnavailable t

/-- `E_RD` (R162). -/
def eRd (ch : Chan) (s : State) : State :=
  let (v, t) := busRead .cntCtrl ch s
  t.setSeq ch { t.seq ch with x := v, pc := .eWr }

/-- `E_WR` (R163): `DIS` and `WAVE_DIS` cleared, `RST` set, every other bit as read; phase `Enabled`; completion. -/
def eWr (ch : Chan) (s : State) : State :=
  let t := busWrite .cntCtrl ch (enableVal s.cfg (s.seq ch).x) s
  complete ch .ok (t.setChan ch { t.chan ch with phase := .enabled })

/-- `D_RD` (R165): no clock enable precedes it. -/
def dRd (ch : Chan) (s : State) : State :=
  let (v, t) := busRead .cntCtrl ch s
  t.setSeq ch { t.seq ch with x := v, pc := .dWr }

/-- `D_WR` (R166): `DIS` and `WAVE_DIS` set, every other bit as read. -/
def dWr (ch : Chan) (s : State) : State :=
  (busWrite .cntCtrl ch (disableVal s.cfg (s.seq ch).x) s).goto ch .dClkoff

/-- `D_CLKOFF` (R167): the clock stops after the write, never before; phase `Disabled`; completion. -/
def dClkoff (ch : Chan) (s : State) : State :=
  complete ch .ok (s.setChan ch { s.chan ch with clkOn := false, phase := .disabled })

/-- `P_SET` (R169): the polarity is latched in the channel record; no bus access; completion. -/
def pSet (ch : Chan) (s : State) : State :=
  complete ch .ok (s.setChan ch { s.chan ch with pol := (s.seq ch).polArg })

end Sys2Proof.Machine
end

