-- ==== Sys2Proof/Machine/Sequencer.lean ====
section
/-! DEFINITION. The sequencer as an agent: its next micro-step, what moves while a host's move has to wait, and what moves
when the script is consumed (00_scope R4, R6; 43_lifecycle R160, R172). -/

namespace Sys2Proof.Machine

/-- The micro-step a sequencer executes next (10_state R24). In `IDLE` it has none and nothing changes. No micro-step can
fault: "every offset the sequence uses is valid" (42_configure R130). -/
def microStep (ch : Chan) (s : State) : State :=
  match (s.seq ch).pc with
  | .idle => s
  | .cCheck => cCheck ch s
  | .cClk => cClk ch s
  | .cRdCnt => cRdCnt ch s
  | .cWrQuiesce => cWrQuiesce ch s
  | .cCalcP => cCalcP ch s
  | .cRdClk => cRdClk ch s
  | .cWrClk => cWrClk ch s
  | .cCalcD => cCalcD ch s
  | .cWrInt => cWrInt ch s
  | .cWrM1 => cWrM1 ch s
  | .cWrRestore => cWrRestore ch s
  | .eClk => eClk ch s
  | .eRd => eRd ch s
  | .eWr => eWr ch s
  | .dRd => dRd ch s
  | .dWr => dWr ch s
  | .dClkoff => dClkoff ch s
  | .pSet => pSet ch s

/-- `n` micro-steps of one channel in a row. -/
def microSteps (ch : Chan) : Nat → State → State
  | 0, s => s
  | n + 1, s => microSteps ch n (microStep ch s)

/-- A host's move on a busy channel is not enabled (43_lifecycle R160, 40_register_access R99): it stays where it is and
the sequencer it waits for takes its next micro-step (log 9). -/
def waitFor (ch : Chan) (s : State) : State := microStep ch s

/-- Nothing is left to consume: the first busy sequencer goes on ("an enabled sequencer micro-step is eventually taken",
70_reset_and_hazards R212); with none busy the machine waits for the host (R201). -/
def drain (s : State) : State :=
  if s.busy .c0 then microStep .c0 s
  else if s.busy .c1 then microStep .c1 s
  else if s.busy .c2 then microStep .c2 s
  else s

/-- A move that is no operation of the block (`Cue`): the environment's answer, one scheduled micro-step, or running a
sequencer until it is idle. -/
def runCue (q : Cue) (s : State) : State :=
  match q with
  | .clkFail ch => { s with clkFail := s.clkFail.set ch true }.consume
  | .micro ch => (microStep ch s).consume
  | .await ch => if s.busy ch then waitFor ch s else s.consume

end Sys2Proof.Machine
end

