-- ==== Sys2Proof/Machine/BusRead.lean ====
section
/-! DEFINITION. The meanings of the 33 `RD` rows: a raw bus read by the host (40_register_access R80, R99). The value read is
the one its `Acc` event carries. -/

namespace Sys2Proof.Machine

/-- A raw read of a modelled register (R80): one atomic step on an idle channel; on a busy channel the host has no such
move, and the access waits (R99, log 9). -/
def rawRead (r : Reg) (ch : Chan) (s : State) : Host.Outcome State Fault Refusal :=
  if s.busy ch then .next (waitFor ch s) else .next (busRead r ch s).2.consume

/-- A raw read of a register of kind 7 to 10 (R95 to R98): "refuse(unmodelled register kind)". The kind is known by its name,
not its number: DESIGN CHOICE (log 19), unsafe under a kind table other than the default. -/
def rawReadDead (d : DeadReg) (ch : Chan) (_s : State) : Host.Outcome State Fault Refusal :=
  .refused (.unmodelledKind d ch)

/-- `RD.CLK_CTRL_0`: R81. -/
def execRdClkCtrlCh0 (s : State) : Host.Outcome State Fault Refusal := rawRead .clkCtrl .c0 s
/-- `RD.CLK_CTRL_1`: R81. -/
def execRdClkCtrlCh1 (s : State) : Host.Outcome State Fault Refusal := rawRead .clkCtrl .c1 s
/-- `RD.CLK_CTRL_2`: R81. -/
def execRdClkCtrlCh2 (s : State) : Host.Outcome State Fault Refusal := rawRead .clkCtrl .c2 s
/-- `RD.CNT_CTRL_0`: R83. -/
def execRdCntCtrlCh0 (s : State) : Host.Outcome State Fault Refusal := rawRead .cntCtrl .c0 s
/-- `RD.CNT_CTRL_1`: R83. -/
def execRdCntCtrlCh1 (s : State) : Host.Outcome State Fault Refusal := rawRead .cntCtrl .c1 s
/-- `RD.CNT_CTRL_2`: R83. -/
def execRdCntCtrlCh2 (s : State) : Host.Outcome State Fault Refusal := rawRead .cntCtrl .c2 s
/-- `RD.COUNTER_VALUE_0`: R85. -/
def execRdCounterValueCh0 (s : State) : Host.Outcome State Fault Refusal := rawRead .counterValue .c0 s
/-- `RD.COUNTER_VALUE_1`: R85. -/
def execRdCounterValueCh1 (s : State) : Host.Outcome State Fault Refusal := rawRead .counterValue .c1 s
/-- `RD.COUNTER_VALUE_2`: R85. -/
def execRdCounterValueCh2 (s : State) : Host.Outcome State Fault Refusal := rawRead .counterValue .c2 s
/-- `RD.INTERVAL_0`: R87. -/
def execRdIntervalCh0 (s : State) : Host.Outcome State Fault Refusal := rawRead .interval .c0 s
/-- `RD.INTERVAL_1`: R87. -/
def execRdIntervalCh1 (s : State) : Host.Outcome State Fault Refusal := rawRead .interval .c1 s
/-- `RD.INTERVAL_2`: R87. -/
def execRdIntervalCh2 (s : State) : Host.Outcome State Fault Refusal := rawRead .interval .c2 s
/-- `RD.MATCH1_0`: R89. -/
def execRdMatch1Ch0 (s : State) : Host.Outcome State Fault Refusal := rawRead .match1 .c0 s
/-- `RD.MATCH1_1`: R89. -/
def execRdMatch1Ch1 (s : State) : Host.Outcome State Fault Refusal := rawRead .match1 .c1 s
/-- `RD.MATCH1_2`: R89. -/
def execRdMatch1Ch2 (s : State) : Host.Outcome State Fault Refusal := rawRead .match1 .c2 s
/-- `RD.MATCH2_0`: R91. -/
def execRdMatch2Ch0 (s : State) : Host.Outcome State Fault Refusal := rawRead .match2 .c0 s
/-- `RD.MATCH2_1`: R91. -/
def execRdMatch2Ch1 (s : State) : Host.Outcome State Fault Refusal := rawRead .match2 .c1 s
/-- `RD.MATCH2_2`: R91. -/
def execRdMatch2Ch2 (s : State) : Host.Outcome State Fault Refusal := rawRead .match2 .c2 s
/-- `RD.MATCH3_0`: R93. -/
def execRdMatch3Ch0 (s : State) : Host.Outcome State Fault Refusal := rawRead .match3 .c0 s
/-- `RD.MATCH3_1`: R93. -/
def execRdMatch3Ch1 (s : State) : Host.Outcome State Fault Refusal := rawRead .match3 .c1 s
/-- `RD.MATCH3_2`: R93. -/
def execRdMatch3Ch2 (s : State) : Host.Outcome State Fault Refusal := rawRead .match3 .c2 s
/-- `RD.IRQ_STATUS_0`: R95. -/
def execRdIrqStatusCh0 (s : State) : Host.Outcome State Fault Refusal := rawReadDead .irqStatus .c0 s
/-- `RD.IRQ_STATUS_1`: R95. -/
def execRdIrqStatusCh1 (s : State) : Host.Outcome State Fault Refusal := rawReadDead .irqStatus .c1 s
/-- `RD.IRQ_STATUS_2`: R95. -/
def execRdIrqStatusCh2 (s : State) : Host.Outcome State Fault Refusal := rawReadDead .irqStatus .c2 s
/-- `RD.IRQ_ENABLE_0`: R96. -/
def execRdIrqEnableCh0 (s : State) : Host.Outcome State Fault Refusal := rawReadDead .irqEnable .c0 s
/-- `RD.IRQ_ENABLE_1`: R96. -/
def execRdIrqEnableCh1 (s : State) : Host.Outcome State Fault Refusal := rawReadDead .irqEnable .c1 s
/-- `RD.IRQ_ENABLE_2`: R96. -/
def execRdIrqEnableCh2 (s : State) : Host.Outcome State Fault Refusal := rawReadDead .irqEnable .c2 s
/-- `RD.EVENT_CTRL_0`: R97. -/
def execRdEventCtrlCh0 (s : State) : Host.Outcome State Fault Refusal := rawReadDead .eventCtrl .c0 s
/-- `RD.EVENT_CTRL_1`: R97. -/
def execRdEventCtrlCh1 (s : State) : Host.Outcome State Fault Refusal := rawReadDead .eventCtrl .c1 s
/-- `RD.EVENT_CTRL_2`: R97. -/
def execRdEventCtrlCh2 (s : State) : Host.Outcome State Fault Refusal := rawReadDead .eventCtrl .c2 s
/-- `RD.EVENT_REG_0`: R98. -/
def execRdEventRegCh0 (s : State) : Host.Outcome State Fault Refusal := rawReadDead .eventReg .c0 s
/-- `RD.EVENT_REG_1`: R98. -/
def execRdEventRegCh1 (s : State) : Host.Outcome State Fault Refusal := rawReadDead .eventReg .c1 s
/-- `RD.EVENT_REG_2`: R98. -/
def execRdEventRegCh2 (s : State) : Host.Outcome State Fault Refusal := rawReadDead .eventReg .c2 s

end Sys2Proof.Machine
end

