-- ==== Sys2Proof/Machine/BusWrite.lean ====
section
/-! DEFINITION. The meanings of the 33 `WR` rows: a raw bus write by the host (40_register_access R80, R99). -/

namespace Sys2Proof.Machine

/-- A raw write of a modelled register (R80): one atomic step on an idle channel; on a busy channel the host has no such
move, and the access waits (R99, log 9). -/
def rawWrite (r : Reg) (ch : Chan) (v : Word) (s : State) : Host.Outcome State Fault Refusal :=
  if s.busy ch then .next (waitFor ch s) else .next (busWrite r ch v s).consume

/-- A raw write of a register of kind 7 to 10 (R95 to R98): "refuse(unmodelled register kind)". The kind is known by its name,
not its number: DESIGN CHOICE (log 19), unsafe under a kind table other than the default. -/
def rawWriteDead (d : DeadReg) (ch : Chan) (_v : Word) (_s : State) : Host.Outcome State Fault Refusal :=
  .refused (.unmodelledKind d ch)

/-- `WR.CLK_CTRL_0`: R82. -/
def execWrClkCtrlCh0 (v : Word) (s : State) : Host.Outcome State Fault Refusal := rawWrite .clkCtrl .c0 v s
/-- `WR.CLK_CTRL_1`: R82. -/
def execWrClkCtrlCh1 (v : Word) (s : State) : Host.Outcome State Fault Refusal := rawWrite .clkCtrl .c1 v s
/-- `WR.CLK_CTRL_2`: R82. -/
def execWrClkCtrlCh2 (v : Word) (s : State) : Host.Outcome State Fault Refusal := rawWrite .clkCtrl .c2 v s
/-- `WR.CNT_CTRL_0`: R84. -/
def execWrCntCtrlCh0 (v : Word) (s : State) : Host.Outcome State Fault Refusal := rawWrite .cntCtrl .c0 v s
/-- `WR.CNT_CTRL_1`: R84. -/
def execWrCntCtrlCh1 (v : Word) (s : State) : Host.Outcome State Fault Refusal := rawWrite .cntCtrl .c1 v s
/-- `WR.CNT_CTRL_2`: R84. -/
def execWrCntCtrlCh2 (v : Word) (s : State) : Host.Outcome State Fault Refusal := rawWrite .cntCtrl .c2 v s
/-- `WR.COUNTER_VALUE_0`: R86. -/
def execWrCounterValueCh0 (v : Word) (s : State) : Host.Outcome State Fault Refusal := rawWrite .counterValue .c0 v s
/-- `WR.COUNTER_VALUE_1`: R86. -/
def execWrCounterValueCh1 (v : Word) (s : State) : Host.Outcome State Fault Refusal := rawWrite .counterValue .c1 v s
/-- `WR.COUNTER_VALUE_2`: R86. -/
def execWrCounterValueCh2 (v : Word) (s : State) : Host.Outcome State Fault Refusal := rawWrite .counterValue .c2 v s
/-- `WR.INTERVAL_0`: R88. -/
def execWrIntervalCh0 (v : Word) (s : State) : Host.Outcome State Fault Refusal := rawWrite .interval .c0 v s
/-- `WR.INTERVAL_1`: R88. -/
def execWrIntervalCh1 (v : Word) (s : State) : Host.Outcome State Fault Refusal := rawWrite .interval .c1 v s
/-- `WR.INTERVAL_2`: R88. -/
def execWrIntervalCh2 (v : Word) (s : State) : Host.Outcome State Fault Refusal := rawWrite .interval .c2 v s
/-- `WR.MATCH1_0`: R90. -/
def execWrMatch1Ch0 (v : Word) (s : State) : Host.Outcome State Fault Refusal := rawWrite .match1 .c0 v s
/-- `WR.MATCH1_1`: R90. -/
def execWrMatch1Ch1 (v : Word) (s : State) : Host.Outcome State Fault Refusal := rawWrite .match1 .c1 v s
/-- `WR.MATCH1_2`: R90. -/
def execWrMatch1Ch2 (v : Word) (s : State) : Host.Outcome State Fault Refusal := rawWrite .match1 .c2 v s
/-- `WR.MATCH2_0`: R92. -/
def execWrMatch2Ch0 (v : Word) (s : State) : Host.Outcome State Fault Refusal := rawWrite .match2 .c0 v s
/-- `WR.MATCH2_1`: R92. -/
def execWrMatch2Ch1 (v : Word) (s : State) : Host.Outcome State Fault Refusal := rawWrite .match2 .c1 v s
/-- `WR.MATCH2_2`: R92. -/
def execWrMatch2Ch2 (v : Word) (s : State) : Host.Outcome State Fault Refusal := rawWrite .match2 .c2 v s
/-- `WR.MATCH3_0`: R94. -/
def execWrMatch3Ch0 (v : Word) (s : State) : Host.Outcome State Fault Refusal := rawWrite .match3 .c0 v s
/-- `WR.MATCH3_1`: R94. -/
def execWrMatch3Ch1 (v : Word) (s : State) : Host.Outcome State Fault Refusal := rawWrite .match3 .c1 v s
/-- `WR.MATCH3_2`: R94. -/
def execWrMatch3Ch2 (v : Word) (s : State) : Host.Outcome State Fault Refusal := rawWrite .match3 .c2 v s
/-- `WR.IRQ_STATUS_0`: R95. -/
def execWrIrqStatusCh0 (v : Word) (s : State) : Host.Outcome State Fault Refusal := rawWriteDead .irqStatus .c0 v s
/-- `WR.IRQ_STATUS_1`: R95. -/
def execWrIrqStatusCh1 (v : Word) (s : State) : Host.Outcome State Fault Refusal := rawWriteDead .irqStatus .c1 v s
/-- `WR.IRQ_STATUS_2`: R95. -/
def execWrIrqStatusCh2 (v : Word) (s : State) : Host.Outcome State Fault Refusal := rawWriteDead .irqStatus .c2 v s
/-- `WR.IRQ_ENABLE_0`: R96. -/
def execWrIrqEnableCh0 (v : Word) (s : State) : Host.Outcome State Fault Refusal := rawWriteDead .irqEnable .c0 v s
/-- `WR.IRQ_ENABLE_1`: R96. -/
def execWrIrqEnableCh1 (v : Word) (s : State) : Host.Outcome State Fault Refusal := rawWriteDead .irqEnable .c1 v s
/-- `WR.IRQ_ENABLE_2`: R96. -/
def execWrIrqEnableCh2 (v : Word) (s : State) : Host.Outcome State Fault Refusal := rawWriteDead .irqEnable .c2 v s
/-- `WR.EVENT_CTRL_0`: R97. -/
def execWrEventCtrlCh0 (v : Word) (s : State) : Host.Outcome State Fault Refusal := rawWriteDead .eventCtrl .c0 v s
/-- `WR.EVENT_CTRL_1`: R97. -/
def execWrEventCtrlCh1 (v : Word) (s : State) : Host.Outcome State Fault Refusal := rawWriteDead .eventCtrl .c1 v s
/-- `WR.EVENT_CTRL_2`: R97. -/
def execWrEventCtrlCh2 (v : Word) (s : State) : Host.Outcome State Fault Refusal := rawWriteDead .eventCtrl .c2 v s
/-- `WR.EVENT_REG_0`: R98. -/
def execWrEventRegCh0 (v : Word) (s : State) : Host.Outcome State Fault Refusal := rawWriteDead .eventReg .c0 v s
/-- `WR.EVENT_REG_1`: R98. -/
def execWrEventRegCh1 (v : Word) (s : State) : Host.Outcome State Fault Refusal := rawWriteDead .eventReg .c1 v s
/-- `WR.EVENT_REG_2`: R98. -/
def execWrEventRegCh2 (v : Word) (s : State) : Host.Outcome State Fault Refusal := rawWriteDead .eventReg .c2 v s

end Sys2Proof.Machine
end

