-- ==== Sys2Proof/Machine/Commands.lean ====
section
/-! DEFINITION. The meanings of the command rows: the host's step `Accept` (43_lifecycle R160), after which the channel's
sequencer carries the command out, and the pseudo-operation TEARDOWN (R170). -/

namespace Sys2Proof.Machine

/-- The micro-state a command starts in (43_lifecycle R160). -/
def firstMicroState : Command → MicroState
  | .configure => .cCheck
  | .enable => .eClk
  | .disable => .dRd
  | .setPolarity => .pSet

/-- The latches an accepted command loads, other than CONFIGURE's operands (R160). -/
def latch (q : Seq) (op : Command) (p : Polarity) : Seq :=
  { q with op := op, polArg := p, pc := firstMicroState op }

/-- Acceptance of a command without operand ports: "enabled only when `seq[ch].pc = IDLE`"; on a busy channel the command
waits (R160, log 9). -/
def accept (ch : Chan) (op : Command) (p : Polarity) (s : State) : State :=
  if s.busy ch then waitFor ch s else (s.setSeq ch (latch (s.seq ch) op p)).consume

/-- CONFIGURE ch, duty_ns, period_ns @ rate_hz: acceptance (R160), which checks the contract of the operands in the order
duty, rate, period, and latches them. -/
def execConfigure (ch : Chan) (dutyNs periodNs rateHz : Word) (s : State) : Host.Outcome State Fault Refusal :=
  if s.busy ch then .next (waitFor ch s)
  else if !dutyOk dutyNs then .refused (.negativeDuty ch)
  else if !rateOk rateHz then .refused (.rateNotPositive ch)
  else if !periodOk periodNs rateHz then .refused (.prescaleCodeNotDefined ch)
  else .next (s.setSeq ch { latch (s.seq ch) .configure .normal with
    dutyNs := dutyNs, periodNs := periodNs, rateHz := rateHz }).consume

/-- ENABLE ch: acceptance (R160). -/
def execEnable (ch : Chan) (s : State) : Host.Outcome State Fault Refusal := .next (accept ch .enable .normal s)

/-- DISABLE ch: acceptance (R160). -/
def execDisable (ch : Chan) (s : State) : Host.Outcome State Fault Refusal := .next (accept ch .disable .normal s)

/-- SET_POLARITY ch, p: acceptance (R160). -/
def execSetPolarity (ch : Chan) (p : Polarity) (s : State) : Host.Outcome State Fault Refusal :=
  .next (accept ch .setPolarity p s)

/-- The expansion of TEARDOWN: DISABLE 0, 1, 2, "each run to completion before the next starts" (30_encoding R72). -/
def teardownScript (cfg : Config) : List Item :=
  scriptLine cfg (.disable .c0) ++ scriptLine cfg (.disable .c1) ++ scriptLine cfg (.disable .c2)

/-- TEARDOWN: its item is replaced by its expansion (43_lifecycle R170). -/
def execTeardown (s : State) : Host.Outcome State Fault Refusal :=
  .next { s with script := teardownScript s.cfg ++ s.script.tail }

end Sys2Proof.Machine
end

