-- ==== Sys2Proof/Machine/Timer.lean ====
section
/-! DEFINITION. The timer channel at a clock edge, and the meaning of EDGE (41_timer_core R110 to R116). -/

namespace Sys2Proof.Machine

/-- Storing the counter, with the match comparator and the waveform phase that act on it (41_timer_core R116). -/
def Channel.storeCounter (c : Channel) (cfg : Config) (counter' : Half) (start : Bool) : Channel :=
  { c with
    counter := counter'
    active := phaseUpdate (matchEn cfg c.cntCtrl) c.match1 counter' start c.active }

/-- Reset service (R111): counter and prescaler phase to 0, `RST` cleared, a period starts. -/
def Channel.resetService (c : Channel) (cfg : Config) : Channel :=
  Channel.storeCounter { c with psCnt := 0, cntCtrl := clearBit c.cntCtrl cfg.cnt.rst } cfg 0 true

/-- A count tick (R115). -/
def Channel.countTick (c : Channel) (cfg : Config) : Channel :=
  c.storeCounter cfg (counterNext c.counter c.interval) (counterWraps c.counter c.interval)

/-- A clock edge that finds the counter enabled in the admitted mode: the prescaler, and a count tick when it lets the
edge through (R113, R115). -/
def Channel.countEdge (c : Channel) (cfg : Config) : Channel :=
  let (tick, psCnt') := prescalerTick cfg c.clkCtrl c.psCnt
  if tick then Channel.countTick { c with psCnt := psCnt' } cfg else { c with psCnt := psCnt' }

/-- What the timer channel does at a clock edge (R110); none where the counting mode is not admitted (R114). -/
def Channel.clockEdge (c : Channel) (cfg : Config) : Option Channel :=
  if rst cfg c.cntCtrl then some (c.resetService cfg)
  else if dis cfg c.cntCtrl then some c
  else if admittedMode cfg c.cntCtrl then some (c.countEdge cfg)
  else none

/-- EDGE ch, the step `ClockEdge(ch)` (R110). With the channel clock stopped "no step of the timer channel exists": the
edge does not reach the channel and only the script's item is consumed (log 10). -/
def execEdge (ch : Chan) (s : State) : Host.Outcome State Fault Refusal :=
  if (s.chan ch).clkOn then
    match (s.chan ch).clockEdge s.cfg with
    | some c => .next ((s.setChan ch c).record (.edge ch)).consume
    | none => .refused (.countingModeNotAdmitted ch)
  else .next s.consume

end Sys2Proof.Machine
end

