-- ==== Sys2Proof/Machine/Dispatch.lean ====
section
/-! DEFINITION. The dispatch of an instruction to its meaning: one arm per constructor of `Instr`. -/

namespace Sys2Proof.Machine

def exec (i : Instr) (s : State) : Host.Outcome State Fault Refusal :=
  match i with
  | .rdClkCtrlCh0 => Sys2Proof.Machine.execRdClkCtrlCh0 s
  | .rdClkCtrlCh1 => Sys2Proof.Machine.execRdClkCtrlCh1 s
  | .rdClkCtrlCh2 => Sys2Proof.Machine.execRdClkCtrlCh2 s
  | .rdCntCtrlCh0 => Sys2Proof.Machine.execRdCntCtrlCh0 s
  | .rdCntCtrlCh1 => Sys2Proof.Machine.execRdCntCtrlCh1 s
  | .rdCntCtrlCh2 => Sys2Proof.Machine.execRdCntCtrlCh2 s
  | .rdCounterValueCh0 => Sys2Proof.Machine.execRdCounterValueCh0 s
  | .rdCounterValueCh1 => Sys2Proof.Machine.execRdCounterValueCh1 s
  | .rdCounterValueCh2 => Sys2Proof.Machine.execRdCounterValueCh2 s
  | .rdIntervalCh0 => Sys2Proof.Machine.execRdIntervalCh0 s
  | .rdIntervalCh1 => Sys2Proof.Machine.execRdIntervalCh1 s
  | .rdIntervalCh2 => Sys2Proof.Machine.execRdIntervalCh2 s
  | .rdMatch1Ch0 => Sys2Proof.Machine.execRdMatch1Ch0 s
  | .rdMatch1Ch1 => Sys2Proof.Machine.execRdMatch1Ch1 s
  | .rdMatch1Ch2 => Sys2Proof.Machine.execRdMatch1Ch2 s
  | .rdMatch2Ch0 => Sys2Proof.Machine.execRdMatch2Ch0 s
  | .rdMatch2Ch1 => Sys2Proof.Machine.execRdMatch2Ch1 s
  | .rdMatch2Ch2 => Sys2Proof.Machine.execRdMatch2Ch2 s
  | .rdMatch3Ch0 => Sys2Proof.Machine.execRdMatch3Ch0 s
  | .rdMatch3Ch1 => Sys2Proof.Machine.execRdMatch3Ch1 s
  | .rdMatch3Ch2 => Sys2Proof.Machine.execRdMatch3Ch2 s
  | .rdIrqStatusCh0 => Sys2Proof.Machine.execRdIrqStatusCh0 s
  | .rdIrqStatusCh1 => Sys2Proof.Machine.execRdIrqStatusCh1 s
  | .rdIrqStatusCh2 => Sys2Proof.Machine.execRdIrqStatusCh2 s
  | .rdIrqEnableCh0 => Sys2Proof.Machine.execRdIrqEnableCh0 s
  | .rdIrqEnableCh1 => Sys2Proof.Machine.execRdIrqEnableCh1 s
  | .rdIrqEnableCh2 => Sys2Proof.Machine.execRdIrqEnableCh2 s
  | .rdEventCtrlCh0 => Sys2Proof.Machine.execRdEventCtrlCh0 s
  | .rdEventCtrlCh1 => Sys2Proof.Machine.execRdEventCtrlCh1 s
  | .rdEventCtrlCh2 => Sys2Proof.Machine.execRdEventCtrlCh2 s
  | .rdEventRegCh0 => Sys2Proof.Machine.execRdEventRegCh0 s
  | .rdEventRegCh1 => Sys2Proof.Machine.execRdEventRegCh1 s
  | .rdEventRegCh2 => Sys2Proof.Machine.execRdEventRegCh2 s
  | .wrClkCtrlCh0 v => Sys2Proof.Machine.execWrClkCtrlCh0 v s
  | .wrClkCtrlCh1 v => Sys2Proof.Machine.execWrClkCtrlCh1 v s
  | .wrClkCtrlCh2 v => Sys2Proof.Machine.execWrClkCtrlCh2 v s
  | .wrCntCtrlCh0 v => Sys2Proof.Machine.execWrCntCtrlCh0 v s
  | .wrCntCtrlCh1 v => Sys2Proof.Machine.execWrCntCtrlCh1 v s
  | .wrCntCtrlCh2 v => Sys2Proof.Machine.execWrCntCtrlCh2 v s
  | .wrCounterValueCh0 v => Sys2Proof.Machine.execWrCounterValueCh0 v s
  | .wrCounterValueCh1 v => Sys2Proof.Machine.execWrCounterValueCh1 v s
  | .wrCounterValueCh2 v => Sys2Proof.Machine.execWrCounterValueCh2 v s
  | .wrIntervalCh0 v => Sys2Proof.Machine.execWrIntervalCh0 v s
  | .wrIntervalCh1 v => Sys2Proof.Machine.execWrIntervalCh1 v s
  | .wrIntervalCh2 v => Sys2Proof.Machine.execWrIntervalCh2 v s
  | .wrMatch1Ch0 v => Sys2Proof.Machine.execWrMatch1Ch0 v s
  | .wrMatch1Ch1 v => Sys2Proof.Machine.execWrMatch1Ch1 v s
  | .wrMatch1Ch2 v => Sys2Proof.Machine.execWrMatch1Ch2 v s
  | .wrMatch2Ch0 v => Sys2Proof.Machine.execWrMatch2Ch0 v s
  | .wrMatch2Ch1 v => Sys2Proof.Machine.execWrMatch2Ch1 v s
  | .wrMatch2Ch2 v => Sys2Proof.Machine.execWrMatch2Ch2 v s
  | .wrMatch3Ch0 v => Sys2Proof.Machine.execWrMatch3Ch0 v s
  | .wrMatch3Ch1 v => Sys2Proof.Machine.execWrMatch3Ch1 v s
  | .wrMatch3Ch2 v => Sys2Proof.Machine.execWrMatch3Ch2 v s
  | .wrIrqStatusCh0 v => Sys2Proof.Machine.execWrIrqStatusCh0 v s
  | .wrIrqStatusCh1 v => Sys2Proof.Machine.execWrIrqStatusCh1 v s
  | .wrIrqStatusCh2 v => Sys2Proof.Machine.execWrIrqStatusCh2 v s
  | .wrIrqEnableCh0 v => Sys2Proof.Machine.execWrIrqEnableCh0 v s
  | .wrIrqEnableCh1 v => Sys2Proof.Machine.execWrIrqEnableCh1 v s
  | .wrIrqEnableCh2 v => Sys2Proof.Machine.execWrIrqEnableCh2 v s
  | .wrEventCtrlCh0 v => Sys2Proof.Machine.execWrEventCtrlCh0 v s
  | .wrEventCtrlCh1 v => Sys2Proof.Machine.execWrEventCtrlCh1 v s
  | .wrEventCtrlCh2 v => Sys2Proof.Machine.execWrEventCtrlCh2 v s
  | .wrEventRegCh0 v => Sys2Proof.Machine.execWrEventRegCh0 v s
  | .wrEventRegCh1 v => Sys2Proof.Machine.execWrEventRegCh1 v s
  | .wrEventRegCh2 v => Sys2Proof.Machine.execWrEventRegCh2 v s
  | .configure ch dutyNs periodNs rateHz => Sys2Proof.Machine.execConfigure ch dutyNs periodNs rateHz s
  | .enable ch => Sys2Proof.Machine.execEnable ch s
  | .disable ch => Sys2Proof.Machine.execDisable ch s
  | .setPolarity ch p => Sys2Proof.Machine.execSetPolarity ch p s
  | .teardown => Sys2Proof.Machine.execTeardown s
  | .edge ch => Sys2Proof.Machine.execEdge ch s

end Sys2Proof.Machine
end

