-- ==== Sys2Proof/Machine/Fetch.lean ====
section
/-! DEFINITION. What stands next at the ports, and placing an item there. -/

namespace Sys2Proof.Machine

/-- The first item of the script, decoded; none when the script is consumed (00_scope R6). -/
def fetch (s : State) : Option Decoded := s.script.head?.map (decodeItem s.cfg)

/-- The state with an item placed first at the ports. -/
def State.present (s : State) (item : Item) : State := { s with script := item :: s.script }

/-- The state with the bits of an opcode-table row placed first at the ports; unchanged where they are no word of either
format. -/
def State.presentTableWord (s : State) (nbits w : Nat) : State :=
  match tableItem nbits w with
  | some item => s.present item
  | none => s

end Sys2Proof.Machine
end

