-- ==== Sys2Proof/Machine/Step.lean ====
section
/-! DEFINITION. One step of the machine (00_scope R4 to R6): the agent the script names moves, or, with the script
consumed, a busy sequencer. -/

namespace Sys2Proof.Machine

/-- One step. From a state with `faulted` or `refused` set no rule goes on (00_scope R5). -/
def step (s : State) : Host.Outcome State Fault Refusal :=
  if s.faulted then .fault .afterFault
  else if s.refused then .refused .afterRefusal
  else
    match fetch s with
    | none => .next (drain s)
    | some (.instr i) => exec i s
    | some (.cue q) => .next (runCue q s)
    | some (.badAccess off) => .fault (.hardwareFault off)
    | some (.reservedCommand cw) => .refused (.reservedCommand cw)

/-- The state with the bits of an opcode-table row placed where `step` takes its next item (log 8). -/
def State.withFetchWord (s : State) (nbits w : Nat) : State := s.presentTableWord nbits w

end Sys2Proof.Machine
end

