-- ==== Sys2Proof/Safety.lean ====
section
/-! DEFINITION. What counts as a safe and a complete run (00_scope R5, R6), and the invariants of the machine: what the spec
says of a channel between any two steps, in whatever order the agents move. -/

namespace Sys2Proof.Machine

/-! ## Runs -/

/-- A claim may pass through a state only with neither sticky flag set (00_scope R5). -/
abbrev State.Unstopped (s : State) : Prop := s.faulted = false ∧ s.refused = false

/-- "The run is over when the script is consumed and every sequencer is in micro-state `IDLE`" (00_scope R6); a faulted
state "is never a final state" and a refused one supports no claim (R5). -/
abbrev State.Final (s : State) : Prop := s.script = [] ∧ (∀ ch, s.busy ch = false) ∧ s.Unstopped

/-- The machine's state after one step, whatever its outcome (00_scope R5). -/
def advance (s : State) : State := s.afterOutcome (step s)

/-- The machine's state after `n` steps. -/
def advances : Nat → State → State
  | 0, s => s
  | n + 1, s => advances n (advance s)

/-- `n` clock edges of a channel in a row, or none where one is refused (30_encoding R71, `EDGE ch x n`). -/
def edges (ch : Chan) : Nat → State → Option State
  | 0, s => some s
  | n + 1, s =>
    match exec (.edge ch) s with
    | .next t => edges ch n t
    | .fault _ => none
    | .refused _ => none

/-- An operation of one channel: a register access, a command or a clock edge of that channel. -/
abbrev OnChannel (i : Instr) (ch : Chan) : Prop :=
  (∃ k, i = Instr.ofRead k ch) ∨ (∃ k v, i = Instr.ofWrite k ch v) ∨
  (∃ d p r, i = .configure ch d p r) ∨ i = .enable ch ∨ i = .disable ch ∨ (∃ p, i = .setPolarity ch p) ∨ i = .edge ch

/-! ## Where a command stands -/

/-- The command a micro-state belongs to (10_state R24, third column). -/
def MicroState.command : MicroState → Option Command
  | .idle => none
  | .cCheck | .cClk | .cRdCnt | .cWrQuiesce | .cCalcP | .cRdClk | .cWrClk | .cCalcD | .cWrInt | .cWrM1 | .cWrRestore =>
    some .configure
  | .eClk | .eRd | .eWr => some .enable
  | .dRd | .dWr | .dClkoff => some .disable
  | .pSet => some .setPolarity

/-- The place of a micro-state in the sequence of its command, counted from 1; 0 for `IDLE`. -/
def MicroState.place : MicroState → Nat
  | .idle => 0
  | .cCheck => 1 | .cClk => 2 | .cRdCnt => 3 | .cWrQuiesce => 4 | .cCalcP => 5 | .cRdClk => 6 | .cWrClk => 7
  | .cCalcD => 8 | .cWrInt => 9 | .cWrM1 => 10 | .cWrRestore => 11
  | .eClk => 1 | .eRd => 2 | .eWr => 3
  | .dRd => 1 | .dWr => 2 | .dClkoff => 3
  | .pSet => 1

/-- A CONFIGURE whose next micro-step is the `n`-th of its sequence or a later one. -/
abbrev Seq.ConfigureFrom (q : Seq) (n : Nat) : Prop := q.pc.command = some .configure ∧ n ≤ q.pc.place

/-! ## The invariant of a channel -/

/-- Two control-register values that agree in every bit but the reset request, the one bit the timer channel writes
(10_state R12). -/
abbrev SameButRst (cfg : Config) (v w : Word) : Prop := clearBit v cfg.cnt.rst = clearBit w cfg.cnt.rst

/-- What holds of a channel between any two steps. -/
structure ChannelInv (cfg : Config) (ext : Bool) (c : Channel) : Prop where
  /-- Unimplemented bits of `CLK_CTRL` read as 0 (10_state R11). -/
  clkMasked : c.clkCtrl &&& ~~~cfg.clkImplMask = 0
  /-- Unimplemented bits of `CNT_CTRL` read as 0 (10_state R12). -/
  cntMasked : c.cntCtrl &&& ~~~cfg.cntImplMask = 0
  /-- The stored exponent is 0 to 16 (10_state R22). -/
  lastRange : ∀ a, c.last = some a → a.e.toNat ≤ 16
  /-- The latched operation is that of the command in progress (10_state R25). -/
  opLatched : ∀ op, c.seq.pc.command = some op → c.seq.op = op
  /-- An accepted CONFIGURE is inside the contract (43_lifecycle R160). -/
  contract : c.seq.ConfigureFrom 1 →
    dutyOk c.seq.dutyNs = true ∧ rateOk c.seq.rateHz = true ∧ periodOk c.seq.periodNs c.seq.rateHz = true
  /-- Past `C_CHECK` the period is not negative (42_configure R136). -/
  periodNonneg : c.seq.ConfigureFrom 2 → 0 ≤ c.seq.periodNs.toInt
  /-- CONFIGURE and ENABLE make the clock run before any register access (70_reset_and_hazards R207). -/
  clockFirst : c.seq.ConfigureFrom 3 ∨ c.seq.pc = .eRd ∨ c.seq.pc = .eWr → c.clkOn = true
  /-- `X0` was read from the register; the timer may have carried out a pending reset since (20_memory R47). -/
  x0Read : c.seq.pc = .cWrQuiesce → SameButRst cfg c.seq.x0 c.cntCtrl
  /-- `X0` has no unimplemented bit. -/
  x0Masked : c.seq.ConfigureFrom 4 → c.seq.x0 &&& ~~~cfg.cntImplMask = 0
  /-- From the quiesce write to the restore write the register is `X0` with `DIS` set, up to the reset request
  (42_configure R139, 70_reset_and_hazards R203). -/
  quiesced : c.seq.ConfigureFrom 5 → SameButRst cfg c.cntCtrl (quiesceVal cfg c.seq.x0)
  /-- Past `C_CALC_P` (42_configure R140), with an exponent of at most 16 (43_lifecycle R160). -/
  periodTicks : c.seq.ConfigureFrom 6 →
    c.seq.pclk.toNat = ticks c.seq.periodNs.toNat c.seq.rateHz.toNat ∧
    c.seq.e.toNat = exponent c.seq.pclk.toNat ∧ c.seq.e.toNat ≤ 16
  /-- `Y` was read from the register, which nothing else writes (42_configure R141). -/
  yRead : c.seq.pc = .cWrClk → c.seq.y = c.clkCtrl
  /-- Past `C_WR_CLK` the register holds the exponent's setting and the channel's clock source (42_configure R142). -/
  clkWritten : c.seq.ConfigureFrom 8 →
    c.clkCtrl = clkval cfg c.seq.y c.seq.e.toNat ext &&& cfg.clkImplMask
  /-- Past `C_CALC_D` (42_configure R143). -/
  thresholds : c.seq.ConfigureFrom 9 →
    c.seq.dclk.toNat = ticks c.seq.dutyNs.toNat c.seq.rateHz.toNat ∧
    c.seq.icnt = threshold c.seq.pclk.toNat c.seq.e.toNat ∧ c.seq.mcnt = threshold c.seq.dclk.toNat c.seq.e.toNat
  /-- Past `C_WR_INT` (42_configure R144). -/
  intervalWritten : c.seq.ConfigureFrom 10 → c.interval = c.seq.icnt
  /-- Past `C_WR_M1` (42_configure R145). -/
  matchWritten : c.seq.ConfigureFrom 11 → c.match1 = c.seq.mcnt
  /-- `X` was read from the register; the timer may have carried out a pending reset since (20_memory R47). -/
  xRead : c.seq.pc = .eWr ∨ c.seq.pc = .dWr → SameButRst cfg c.seq.x c.cntCtrl
  /-- DISABLE writes the register before it stops the clock (43_lifecycle R167). -/
  writtenBeforeClockOff : c.seq.pc = .dClkoff → dis cfg c.cntCtrl = true ∧ waveDis cfg c.cntCtrl = true

/-- The invariant of the machine: well-formed parameters, and every channel's invariant. -/
structure State.Inv (s : State) : Prop where
  cfgOk : s.cfg.WellFormed
  chanOk : ∀ ch, ChannelInv s.cfg (s.cfg.extClk.get ch) (s.chan ch)

/-! ## The lifecycle invariant (43_lifecycle R171) -/

/-- A control-register value with the counter running and the waveform connected. -/
abbrev Running (cfg : Config) (w : Word) : Prop := dis cfg w = false ∧ waveDis cfg w = false

/-- A control-register value with the counter stopped and the waveform disconnected. -/
abbrev Stopped (cfg : Config) (w : Word) : Prop := dis cfg w = true ∧ waveDis cfg w = true

/-- The control-register value that a phase goes with: running in `Enabled`, stopped in `Disabled` and `Configured`. -/
abbrev PhaseMatches (cfg : Config) (p : Phase) (w : Word) : Prop :=
  if p = .enabled then Running cfg w else Stopped cfg w

/-- A control-register value in the mode every CONFIGURE leaves: interval mode, match enabled, counting up. -/
abbrev PwmMode (cfg : Config) (w : Word) : Prop :=
  int cfg w = true ∧ matchEn cfg w = true ∧ dec cfg w = false

/-- The lifecycle facts of a channel whose sequencer is `IDLE`, as 43_lifecycle R171 lists them. -/
structure IdleFacts (cfg : Config) (c : Channel) : Prop where
  enabledIff : c.phase = .enabled ↔ Running cfg c.cntCtrl
  stoppedIff : (c.phase = .disabled ∨ c.phase = .configured) ↔ Stopped cfg c.cntCtrl
  clockIff : c.phase = .disabled ↔ c.clkOn = false
  applied : ∀ a, c.last = some a →
    PwmMode cfg c.cntCtrl ∧ c.interval = a.intervalCount ∧ c.match1 = a.matchCount

/-- The lifecycle invariant of a channel whose registers are written by commands only, in every micro-state.
Up to the first write of a command the register goes with the phase and the last-applied parameters are in place; in
CONFIGURE after the quiesce write the value read in step 1 does; between a DISABLE's write and its clock stop the channel
is stopped. -/
structure LifecycleInv (cfg : Config) (c : Channel) : Prop where
  settled : (c.seq.ConfigureFrom 5 → False) → c.seq.pc ≠ .dClkoff → PhaseMatches cfg c.phase c.cntCtrl
  reconfiguring : c.seq.ConfigureFrom 5 → PhaseMatches cfg c.phase c.seq.x0
  clock : (c.seq.ConfigureFrom 3 → False) → c.seq.pc ≠ .eRd → c.seq.pc ≠ .eWr →
    (c.phase = .disabled ↔ c.clkOn = false)
  modeKept : ∀ a, c.last = some a → PwmMode cfg c.cntCtrl
  intervalKept : ∀ a, c.last = some a → (c.seq.ConfigureFrom 10 → False) → c.interval = a.intervalCount
  matchKept : ∀ a, c.last = some a → (c.seq.ConfigureFrom 11 → False) → c.match1 = a.matchCount

/-- The lifecycle invariant of the machine. -/
abbrev State.Lifecycle (s : State) : Prop := ∀ ch, LifecycleInv s.cfg (s.chan ch)

/-- The item a step takes next is no raw write: "the channel's registers are written by commands only" (43_lifecycle
R171). -/
abbrev State.NoRawWrite (s : State) : Prop :=
  ∀ k ch v, fetch s ≠ some (.instr (Instr.ofWrite k ch v))

end Sys2Proof.Machine
end

