-- ==== Sys2Proof/WellFormed.lean ====
section
/-! DEFINITION. Well-formed instructions: what a host that keeps D00's contract presents. Register and channel are in
range by type; what remains is the contract of CONFIGURE's operands (30_encoding R70 d, 43_lifecycle R160). -/

namespace Sys2Proof

/-- The operands are inside the contract: duty not negative, rate positive, prescale code defined. -/
def Instr.wellFormed : Instr → Bool
  | .configure _ dutyNs periodNs rateHz =>
    Machine.dutyOk dutyNs && Machine.rateOk rateHz && Machine.periodOk periodNs rateHz
  | _ => true

end Sys2Proof
end

