-- ==== Sys2Proof/Certificates/Slice0/Obligations.lean ====
section
/-! DEFINITION. The statements for the provers. Each docstring names the rules or sections of spec/ it formalises, and where
a clause is the spec's own decision or the model's choice it says so. -/

open Sys2Proof Sys2Proof.Machine

/-! ## Encoding -/

/-- Decode and encode agree, for every instruction, every operand and every well-formed choice of parameters
(30_encoding sections 1, 2 and 4). -/
def Obligations.DecodeEncodeAgree : Prop :=
  ∀ (cfg : Config) (i : Instr), cfg.WellFormed → decodeItem cfg (encode cfg i) = .instr i

/-- Each accepted word has one meaning: an item that decodes to an instruction is the encoder's item for it, up to ports
the instruction does not read (30_encoding sections 2 and 4; R68: the operand ports are read by CONFIGURE only). -/
def Obligations.EncodeDecodeAgree : Prop :=
  ∀ (cfg : Config) (item : Item) (i : Instr), cfg.KindsOk → decodeItem cfg item = .instr i →
    match item with
    | .bus width tw data =>
      width = .word ∧ ∃ data', encode cfg i = .bus .word tw data' ∧ (twWrite tw = true → data' = data)
    | .command cw d p r =>
      ∃ d' p' r', encode cfg i = .command cw d' p' r' ∧ (cwOp cw = .configure → d' = d ∧ p' = p ∧ r' = r)
    | .teardown => encode cfg i = item
    | .edge _ => encode cfg i = item
    | .cue _ => False

/-- The address formula and its inverse (30_encoding R60), under any kind table. -/
def Obligations.OffsetNamesRegister : Prop :=
  ∀ (cfg : Config) (off : Nat), cfg.KindsOk →
    ((cfg.locate off).isSome = true ↔ off % 4 = 0 ∧ off < 0x84) ∧
    (∀ k ch, cfg.locate off = some (k, ch) ↔
      off = 4 * (3 * cfg.kindNum k + ch.toNat)) ∧
    (∀ k ch, cfg.addr k ch = cfg.base + 4 * (3 * cfg.kindNum k + ch.toNat)) ∧
    (∀ k ch, cfg.locate off = some (k, ch) → cfg.kindNum k = off / 4 / 3 ∧ ch.toNat = off / 4 % 3)

/-- "no two (channel, kind) pairs alias"; every register is an aligned word of the 132-byte region (20_memory section 1). -/
def Obligations.RegistersDoNotAlias : Prop :=
  ∀ (cfg : Config), cfg.WellFormed →
    (∀ k ch k' ch', cfg.addr k ch = cfg.addr k' ch' → k = k' ∧ ch = ch') ∧
    (∀ k ch, cfg.addr k ch % 4 = 0 ∧ cfg.base ≤ cfg.addr k ch ∧ cfg.addr k ch + 4 ≤ cfg.base + 132)

/-- Words written out from the spec's encodings decode to the instructions they stand for (30_encoding sections 2 and 4;
95_test_vectors V-A2 and programs P1, P2). The register words are those of the kind table of 30_encoding section 1, which
00_scope marks as general knowledge: it stands as a hypothesis (log 2). -/
def Obligations.SampleWordsDecode : Prop :=
  ∀ cfg : Config, cfg.kindOf = Kind.all →
    (∀ d, decodeItem cfg (.bus .word 0b000001100#9 d) = .instr .rdCntCtrlCh0) ∧
    (∀ d, decodeItem cfg (.bus .word 0b100111000#9 d) = .instr (.wrMatch1Ch2 d)) ∧
    (∀ d, decodeItem cfg (.bus .word 0b001010000#9 d) = .instr .rdMatch3Ch2) ∧
    (∀ d, decodeItem cfg (.bus .word 0b001010100#9 d) = .instr .rdIrqStatusCh0) ∧
    (∀ d p r, decodeItem cfg (.command 0b00000010#8 d p r) = .instr (.configure .c2 d p r)) ∧
    (∀ d p r, decodeItem cfg (.command 0b00000101#8 d p r) = .instr (.enable .c1)) ∧
    (∀ d p r, decodeItem cfg (.command 0b00001000#8 d p r) = .instr (.disable .c0)) ∧
    (∀ d p r, decodeItem cfg (.command 0b00011101#8 d p r) = .instr (.setPolarity .c1 .inverted))

/-- Reserved encodings (30_encoding section 5; the spec's decisions D6, D7, D22, D23): (a) an offset that names no register is
a fault; (b) an offset of kind 7 to 10 is refused; (c) a reserved command word is refused; (d) a CONFIGURE outside the
contract is refused at acceptance; and a write of 1 outside the implemented mask is ignored. That the refusals (b) and (c)
hold on a busy channel too, where the spec gives the host no move (R99, R160, decision D32), is the model's, DEDUCED
(log 14); that (b) goes by the kinds' names under a kind table other than the default is its DESIGN CHOICE (log 19). -/
def Obligations.ReservedEncodings : Prop :=
  (∀ (s : State) tw data rest, s.Unstopped → s.script = .bus .word tw data :: rest →
    (twOffset tw).toNat % 4 ≠ 0 ∨ (twOffset tw).toNat ≥ 0x84 → step s = .fault (.hardwareFault (twOffset tw))) ∧
  (∀ (s : State) tw data rest d ch, s.Unstopped → s.script = .bus .word tw data :: rest →
    s.cfg.locate (twOffset tw).toNat = some (.dead d, ch) → step s = .refused (.unmodelledKind d ch)) ∧
  (∀ (s : State) (cw : Byte) d p r rest, s.Unstopped → s.script = .command cw d p r :: rest →
    cw.extractLsb' 0 2 = 3 ∨ cw.extractLsb' 5 3 ≠ 0 ∨ (cw.getLsbD 4 = true ∧ cw.extractLsb' 2 2 ≠ 0b11) →
    step s = .refused (.reservedCommand cw)) ∧
  (∀ (s : State) ch (d p r : Word), s.busy ch = false →
    d.toInt < 0 ∨ r = 0 ∨ (0 ≤ p.toInt ∧ p.toNat * r.toNat / 1000000000 ≥ 2 ^ 32) →
    ∃ x, exec (.configure ch d p r) s = .refused x) ∧
  (∀ (c : Channel) (cfg : Config) r (v w : Word),
    (r = .clkCtrl → v &&& cfg.clkImplMask = w &&& cfg.clkImplMask) →
    (r = .cntCtrl → v &&& cfg.cntImplMask = w &&& cfg.cntImplMask) →
    (r ≠ .clkCtrl → r ≠ .cntCtrl → v &&& 0xFFFF = w &&& 0xFFFF) → c.writeReg cfg r v = c.writeReg cfg r w)

/-! ## Steps -/

/-- A step runs the decoded instruction: where the next item decodes to an instruction, `step` is `exec` of it at that
state; `exec` consumes the item where the move is made and leaves it where it has to wait (00_scope section 4, log 8). -/
def Obligations.StepRunsDecodedInstruction : Prop :=
  ∀ (s : State) item rest i, s.Unstopped → s.script = item :: rest → decodeItem s.cfg item = .instr i →
    step s = exec i s

/-- What moves when the next item is no instruction (00_scope section 4; the model's scheduling, log 8): with the script
consumed, the first busy sequencer, and with none busy nothing changes; a `micro` item runs one micro-step; an `await` item
runs its sequencer until it is idle; a `clkFail` item sets the environment's next answer. -/
def Obligations.StepSchedules : Prop :=
  (∀ s : State, s.Unstopped → s.script = [] →
    (s.busy .c0 = true → step s = .next (microStep .c0 s)) ∧
    (s.busy .c0 = false → s.busy .c1 = true → step s = .next (microStep .c1 s)) ∧
    (s.busy .c0 = false → s.busy .c1 = false → s.busy .c2 = true → step s = .next (microStep .c2 s)) ∧
    (s.Final → step s = .next s)) ∧
  (∀ (s : State) ch rest, s.Unstopped → s.script = .cue (.micro ch) :: rest →
    step s = .next { microStep ch s with script := rest }) ∧
  (∀ (s : State) ch rest, s.Unstopped → s.script = .cue (.await ch) :: rest →
    step s = .next (if s.busy ch = true then microStep ch s else { s with script := rest })) ∧
  (∀ (s : State) ch rest, s.Unstopped → s.script = .cue (.clkFail ch) :: rest →
    step s = .next { s with clkFail := s.clkFail.set ch true, script := rest })

/-- A raw access that does not reach a register (20_memory R43; the spec's decision D6): a fault that carries the offset
and touches no register. -/
def Obligations.BadAccessFaults : Prop :=
  ∀ (s : State) width tw data rest, s.Unstopped → s.script = .bus width tw data :: rest →
    width ≠ .word ∨ (twOffset tw).toNat % 4 ≠ 0 ∨ (twOffset tw).toNat ≥ 0x84 →
    step s = .fault (.hardwareFault (twOffset tw)) ∧ (advance s).faulted = true ∧ (advance s).chans = s.chans

/-- The flags are set by a fault or a refusal and cleared by no step (10_state R28, 00_scope R5). -/
def Obligations.StopFlagsAreSticky : Prop :=
  (∀ s : State, (∃ r, step s = .fault r) → (advance s).faulted = true) ∧
  (∀ s : State, (∃ r, step s = .refused r) → (advance s).refused = true) ∧
  (∀ s : State, s.faulted = true → (advance s).faulted = true) ∧
  (∀ s : State, s.refused = true → (advance s).refused = true) ∧
  (∀ s t : State, step s = .next t → s.Unstopped ∧ t.Unstopped)

/-- The trace is append-only: a step adds at most two events, an access and a completion (10_state section 6). -/
def Obligations.TraceOnlyGrows : Prop :=
  ∀ s t : State, step s = .next t → ∃ es, t.trace = s.trace ++ es ∧ es.length ≤ 2

/-- The parameters are fixed: no step changes one (10_state section 8; that they stand in the state is log 1). -/
def Obligations.ParametersNeverChange : Prop :=
  ∀ s t : State, step s = .next t → t.cfg = s.cfg

/-! ## Raw register accesses -/

/-- `RD CLK_CTRL_ch` and `WR CLK_CTRL_ch, v` (40_register_access R81, R82; the mask is the spec's decision D3). -/
def Obligations.AccessClkCtrl : Prop :=
  ∀ (s : State) ch (v : Word), s.busy ch = false →
    exec (Instr.ofRead (.reg .clkCtrl) ch) s = .next { s with
      trace := s.trace ++ [.acc .R (s.chan ch).clkCtrl ch .clkCtrl], script := s.script.tail } ∧
    (s.Inv → ∀ i, s.cfg.clkImplMask.getLsbD i = false → (s.chan ch).clkCtrl.getLsbD i = false) ∧
    exec (Instr.ofWrite (.reg .clkCtrl) ch v) s = .next { s with
      chans := s.chans.set ch { s.chan ch with clkCtrl := v &&& s.cfg.clkImplMask }
      trace := s.trace ++ [.acc .W v ch .clkCtrl], script := s.script.tail }

/-- `RD CNT_CTRL_ch` and `WR CNT_CTRL_ch, v` (40_register_access R84; decisions D3, D12). -/
def Obligations.AccessCntCtrl : Prop :=
  ∀ (s : State) ch (v : Word), s.busy ch = false →
    exec (Instr.ofRead (.reg .cntCtrl) ch) s = .next { s with
      trace := s.trace ++ [.acc .R (s.chan ch).cntCtrl ch .cntCtrl], script := s.script.tail } ∧
    (s.Inv → ∀ i, s.cfg.cntImplMask.getLsbD i = false → (s.chan ch).cntCtrl.getLsbD i = false) ∧
    exec (Instr.ofWrite (.reg .cntCtrl) ch v) s = .next { s with
      chans := s.chans.set ch { s.chan ch with cntCtrl := v &&& s.cfg.cntImplMask }
      trace := s.trace ++ [.acc .W v ch .cntCtrl], script := s.script.tail }

/-- `RD COUNTER_VALUE_ch` reads the live counter and `WR COUNTER_VALUE_ch, v` changes nothing but the trace
(40_register_access section 4; the spec's decision D7). -/
def Obligations.AccessCounterValue : Prop :=
  ∀ (s : State) ch (v : Word), s.busy ch = false →
    exec (Instr.ofRead (.reg .counterValue) ch) s = .next { s with
      trace := s.trace ++ [.acc .R ((s.chan ch).counter.setWidth 32) ch .counterValue], script := s.script.tail } ∧
    exec (Instr.ofWrite (.reg .counterValue) ch v) s = .next { s with
      trace := s.trace ++ [.acc .W v ch .counterValue], script := s.script.tail }

/-- `RD INTERVAL_ch` and `WR INTERVAL_ch, v` (40_register_access R87, R88). -/
def Obligations.AccessInterval : Prop :=
  ∀ (s : State) ch (v : Word), s.busy ch = false →
    exec (Instr.ofRead (.reg .interval) ch) s = .next { s with
      trace := s.trace ++ [.acc .R ((s.chan ch).interval.setWidth 32) ch .interval], script := s.script.tail } ∧
    exec (Instr.ofWrite (.reg .interval) ch v) s = .next { s with
      chans := s.chans.set ch { s.chan ch with interval := v.extractLsb' 0 16 }
      trace := s.trace ++ [.acc .W v ch .interval], script := s.script.tail }

/-- `RD MATCH1_ch` and `WR MATCH1_ch, v` (40_register_access R89, R90): no match event at a write. -/
def Obligations.AccessMatch1 : Prop :=
  ∀ (s : State) ch (v : Word), s.busy ch = false →
    exec (Instr.ofRead (.reg .match1) ch) s = .next { s with
      trace := s.trace ++ [.acc .R ((s.chan ch).match1.setWidth 32) ch .match1], script := s.script.tail } ∧
    exec (Instr.ofWrite (.reg .match1) ch v) s = .next { s with
      chans := s.chans.set ch { s.chan ch with match1 := v.extractLsb' 0 16 }
      trace := s.trace ++ [.acc .W v ch .match1], script := s.script.tail }

/-- `RD MATCH2_ch`, `WR MATCH2_ch, v`, `RD MATCH3_ch` and `WR MATCH3_ch, v`: storage without effect (40_register_access R91
to R94; the spec's decision D7). -/
def Obligations.AccessMatch2And3 : Prop :=
  ∀ (s : State) ch (v : Word), s.busy ch = false →
    exec (Instr.ofRead (.reg .match2) ch) s = .next { s with
      trace := s.trace ++ [.acc .R ((s.chan ch).match2.setWidth 32) ch .match2], script := s.script.tail } ∧
    exec (Instr.ofWrite (.reg .match2) ch v) s = .next { s with
      chans := s.chans.set ch { s.chan ch with match2 := v.extractLsb' 0 16 }
      trace := s.trace ++ [.acc .W v ch .match2], script := s.script.tail } ∧
    exec (Instr.ofRead (.reg .match3) ch) s = .next { s with
      trace := s.trace ++ [.acc .R ((s.chan ch).match3.setWidth 32) ch .match3], script := s.script.tail } ∧
    exec (Instr.ofWrite (.reg .match3) ch v) s = .next { s with
      chans := s.chans.set ch { s.chan ch with match3 := v.extractLsb' 0 16 }
      trace := s.trace ++ [.acc .W v ch .match3], script := s.script.tail }

/-- Registers of kind 7 to 10: every access is refused, in every state (40_register_access section 7; decision D7). That the
refusal holds on a busy channel too, where the spec gives the host no move (R99, decision D32), is the model's, DEDUCED
(log 14); that it goes by the kinds' names under a kind table other than the default is its DESIGN CHOICE (log 19). -/
def Obligations.UnmodelledKindsRefused : Prop :=
  ∀ (s : State) d ch (v : Word),
    exec (Instr.ofRead (.dead d) ch) s = .refused (.unmodelledKind d ch) ∧
    exec (Instr.ofWrite (.dead d) ch v) s = .refused (.unmodelledKind d ch)

/-- A host's move on a busy channel is not enabled (43_lifecycle section 1, 40_register_access section 8); the model's
choice, log 9, is that it waits: the channel's sequencer takes its micro-step and the item stays. -/
def Obligations.HostWaitsForBusyChannel : Prop :=
  ∀ (s : State) ch, s.busy ch = true →
    (∀ r, exec (Instr.ofRead (.reg r) ch) s = .next (microStep ch s)) ∧
    (∀ r v, exec (Instr.ofWrite (.reg r) ch v) s = .next (microStep ch s)) ∧
    (∀ d p r, exec (.configure ch d p r) s = .next (microStep ch s)) ∧
    exec (.enable ch) s = .next (microStep ch s) ∧
    exec (.disable ch) s = .next (microStep ch s) ∧
    (∀ p, exec (.setPolarity ch p) s = .next (microStep ch s)) ∧
    (microStep ch s).script = s.script

/-- The frame of the region, byte by byte: a read and a command's acceptance leave every byte as it was, a write every byte
outside its own word, a clock edge every byte outside its channel's `CNT_CTRL` and `COUNTER_VALUE`; and the bytes of a
register are its little-endian lanes (20_memory sections 2 and 3; byte order is the spec's decision D5). -/
def Obligations.RegionByteFrame : Prop :=
  ∀ (s t : State) ch, s.cfg.KindsOk →
    (∀ r, s.busy ch = false → exec (Instr.ofRead (.reg r) ch) s = .next t → ∀ a, t.readByte a = s.readByte a) ∧
    (∀ r v, s.busy ch = false → exec (Instr.ofWrite (.reg r) ch v) s = .next t →
      (∀ a, a < s.cfg.off (.reg r) ch ∨ s.cfg.off (.reg r) ch + 4 ≤ a → t.readByte a = s.readByte a) ∧
      (∀ i < 4, t.readByte (s.cfg.off (.reg r) ch + i) =
        some (((t.chan ch).readReg r).extractLsb' (8 * i) 8))) ∧
    (∀ i, s.busy ch = false → (∃ d p r, i = .configure ch d p r) ∨ i = .enable ch ∨ i = .disable ch ∨
      (∃ p, i = .setPolarity ch p) → exec i s = .next t → ∀ a, t.readByte a = s.readByte a) ∧
    (exec .teardown s = .next t → ∀ a, t.readByte a = s.readByte a) ∧
    (exec (.edge ch) s = .next t → ∀ a,
      (a < s.cfg.off (.reg .cntCtrl) ch ∨ s.cfg.off (.reg .cntCtrl) ch + 4 ≤ a) →
      (a < s.cfg.off (.reg .counterValue) ch ∨ s.cfg.off (.reg .counterValue) ch + 4 ≤ a) →
      t.readByte a = s.readByte a)

/-! ## The timer channel -/

/-- With the channel clock stopped there is no step of the timer channel (41_timer_core section 1): an EDGE item is
consumed and nothing else changes, not even the trace. That the item is consumed is the model's choice, log 10. -/
def Obligations.EdgeWithClockStopped : Prop :=
  ∀ (s : State) ch, (s.chan ch).clkOn = false → exec (.edge ch) s = .next { s with script := s.script.tail }

/-- Reset service at a clock edge, whatever `DIS`, `DEC`, `INT` and the prescaler say (41_timer_core section 1; decision
D12, and the self-clearing of `RST` is general knowledge G4). The comparator acts: a match value of 0 wins. -/
def Obligations.EdgeServicesReset : Prop :=
  ∀ (s : State) ch, s.cfg.WellFormed →
    (s.chan ch).clkOn = true → (s.chan ch).cntCtrl.getLsbD s.cfg.cnt.rst = true →
    exec (.edge ch) s = .next { s with
      chans := s.chans.set ch { s.chan ch with
        counter := 0
        psCnt := 0
        cntCtrl := (s.chan ch).cntCtrl &&& ~~~(BitVec.twoPow 32 s.cfg.cnt.rst)
        active := decide (¬((s.chan ch).cntCtrl.getLsbD s.cfg.cnt.matchEn = true ∧ (s.chan ch).match1 = 0)) }
      trace := s.trace ++ [.edge ch], script := s.script.tail }

/-- Counting disabled: the edge changes nothing (41_timer_core R112; holding the prescaler phase is decision D10). -/
def Obligations.EdgeWithCountingDisabled : Prop :=
  ∀ (s : State) ch, (s.chan ch).clkOn = true →
    (s.chan ch).cntCtrl.getLsbD s.cfg.cnt.rst = false → (s.chan ch).cntCtrl.getLsbD s.cfg.cnt.dis = true →
    exec (.edge ch) s = .next { s with trace := s.trace ++ [.edge ch], script := s.script.tail }

/-- A counting mode that is not admitted is refused at the edge that would count (41_timer_core R114; decision D15). -/
def Obligations.EdgeInOtherModeRefused : Prop :=
  ∀ (s : State) ch, (s.chan ch).clkOn = true →
    (s.chan ch).cntCtrl.getLsbD s.cfg.cnt.rst = false → (s.chan ch).cntCtrl.getLsbD s.cfg.cnt.dis = false →
    ((s.chan ch).cntCtrl.getLsbD s.cfg.cnt.dec = true ∨ (s.chan ch).cntCtrl.getLsbD s.cfg.cnt.int = false) →
    exec (.edge ch) s = .refused (.countingModeNotAdmitted ch)

/-- A counting edge: the prescaler lets one edge in `div` through, `div` being 1 with the prescaler off and `2^(PS_V+1)` with
it on; a count tick steps or wraps the counter; the comparator and the start of a period set the phase (41_timer_core R113,
R115, R116; decisions D10, D11, D13). -/
def Obligations.EdgeCounts : Prop :=
  ∀ (s : State) ch (div : Nat),
    (s.chan ch).clkOn = true →
    (s.chan ch).cntCtrl.getLsbD s.cfg.cnt.rst = false → (s.chan ch).cntCtrl.getLsbD s.cfg.cnt.dis = false →
    (s.chan ch).cntCtrl.getLsbD s.cfg.cnt.int = true → (s.chan ch).cntCtrl.getLsbD s.cfg.cnt.dec = false →
    div = (if (s.chan ch).clkCtrl.getLsbD s.cfg.clk.psEn = true
      then 2 ^ (((s.chan ch).clkCtrl >>> s.cfg.clk.psShift).toNat % 16 + 1) else 1) →
    ((s.chan ch).psCnt.toNat + 1 < div →
      exec (.edge ch) s = .next { s with
        chans := s.chans.set ch { s.chan ch with psCnt := (s.chan ch).psCnt + 1 }
        trace := s.trace ++ [.edge ch], script := s.script.tail }) ∧
    ((s.chan ch).psCnt.toNat + 1 ≥ div →
      ∃ c' wrap a,
        wrap = decide ((s.chan ch).counter = (s.chan ch).interval ∨ (s.chan ch).counter = 65535#16) ∧
        c' = (if wrap = true then 0#16 else (s.chan ch).counter + 1) ∧
        a = (if (s.chan ch).cntCtrl.getLsbD s.cfg.cnt.matchEn = true ∧ c' = (s.chan ch).match1 then false
          else if wrap = true then true else (s.chan ch).active) ∧
        exec (.edge ch) s = .next { s with
          chans := s.chans.set ch { s.chan ch with psCnt := 0, counter := c', active := a }
          trace := s.trace ++ [.edge ch], script := s.script.tail })

/-- The output pin (41_timer_core R117; the idle level is the parameter `WAVE_IDLE`, decision D14). -/
def Obligations.OutputPin : Prop :=
  ∀ (s : State) ch, s.waveOut ch =
    if (s.chan ch).cntCtrl.getLsbD s.cfg.cnt.waveDis = true then s.cfg.waveIdle
    else if (s.chan ch).cntCtrl.getLsbD s.cfg.cnt.wavePol = true then (s.chan ch).active
    else !(s.chan ch).active

/-- The steady-state waveform: with a reset carried out at edge 0, at edge `t` the counter is `floor(t / div) mod (I + 1)`
and the phase is active in the first `M` count ticks of a period (41_timer_core section 3, derived there from the decisions
D10 to D14). -/
def Obligations.SteadyStateWaveform : Prop :=
  ∀ (s : State) ch, s.cfg.WellFormed → (s.chan ch).clkOn = true →
    rst s.cfg (s.chan ch).cntCtrl = true → dis s.cfg (s.chan ch).cntCtrl = false →
    int s.cfg (s.chan ch).cntCtrl = true → dec s.cfg (s.chan ch).cntCtrl = false →
    matchEn s.cfg (s.chan ch).cntCtrl = true → waveDis s.cfg (s.chan ch).cntCtrl = false →
    ∀ t : Nat, ∃ u, edges ch (t + 1) s = some u ∧
      (u.chan ch).counter.toNat =
        t / divisor s.cfg (s.chan ch).clkCtrl % ((s.chan ch).interval.toNat + 1) ∧
      ((u.chan ch).active = true ↔
        (s.chan ch).interval.toNat < (s.chan ch).match1.toNat ∨
        (1 ≤ (s.chan ch).match1.toNat ∧
          t / divisor s.cfg (s.chan ch).clkCtrl % ((s.chan ch).interval.toNat + 1) < (s.chan ch).match1.toNat)) ∧
      u.waveOut ch = (if wavePol s.cfg (s.chan ch).cntCtrl = true then (u.chan ch).active else !(u.chan ch).active)

/-! ## CONFIGURE: arithmetic -/

/-- Nanoseconds to ticks, exactly, in 64 bits, on every operand the ports can hold (42_configure R131). -/
def Obligations.TicksAreExact : Prop :=
  ∀ ns rate : Nat, ns < 2 ^ 31 → rate < 2 ^ 32 →
    ticks ns rate = ns * rate / 1000000000 ∧ ns * rate < 2 ^ 63 ∧ ticks ns rate < 2 ^ 34 ∧
    (BitVec.ofNat 64 (ticks ns rate)).toNat = ticks ns rate

/-- The prescaler exponent: the least that brings the period into 16 bits, 0 to 16 on admitted periods (42_configure R132;
that a period of 0 has exponent 0 is the spec's decision D21). -/
def Obligations.ExponentIsLeast : Prop :=
  ∀ p : Nat,
    exponent p = max 0 (bitlen p - 16) ∧
    (0 < p → 2 ^ (bitlen p - 1) ≤ p ∧ p < 2 ^ bitlen p ∧ bitlen p = Nat.log 2 p + 1) ∧
    exponent 0 = 0 ∧
    p >>> exponent p ≤ 65535 ∧
    (0 < exponent p → p >>> (exponent p - 1) > 65535) ∧
    (p < 2 ^ 32 → exponent p ≤ 16)

/-- The clock-control value of step 4, field by field, in any well-formed layout (42_configure R133). -/
def Obligations.ClockControlValue : Prop :=
  ∀ (cfg : Config) (y : Word) (e : Nat) (ext : Bool), cfg.WellFormed → e ≤ 16 →
    psEn cfg (clkval cfg y e ext) = decide (e ≠ 0) ∧
    psV cfg (clkval cfg y e ext) = e - 1 ∧
    (clkval cfg y e ext).getLsbD cfg.clk.cSrc = ext ∧
    ∀ i, i ≠ cfg.clk.psEn → i ≠ cfg.clk.cSrc → (i < cfg.clk.psShift ∨ cfg.clk.psShift + 4 ≤ i) →
      (clkval cfg y e ext).getLsbD i = y.getLsbD i

/-- The two thresholds: the mask never changes the interval and reduces the match modulo 2^16 (42_configure R134). -/
def Obligations.ThresholdValues : Prop :=
  (∀ p : Nat, (threshold p (exponent p)).toNat = p >>> exponent p) ∧
  (∀ d e : Nat, (threshold d e).toNat = d >>> e % 65536)

/-- The counter-control value of step 7, field by field, from the value read before the quiesce write (42_configure R135;
the base X0 is the resolution of conflict C1). -/
def Obligations.CounterControlValue : Prop :=
  ∀ (cfg : Config) (x0 : Word) (p : Polarity), cfg.WellFormed →
    dec cfg (cntval cfg x0 p) = false ∧ int cfg (cntval cfg x0 p) = true ∧ rst cfg (cntval cfg x0 p) = true ∧
    matchEn cfg (cntval cfg x0 p) = true ∧ wavePol cfg (cntval cfg x0 p) = decide (p = .normal) ∧
    ∀ i, i ≠ cfg.cnt.dec → i ≠ cfg.cnt.int → i ≠ cfg.cnt.rst → i ≠ cfg.cnt.matchEn → i ≠ cfg.cnt.wavePol →
      (cntval cfg x0 p).getLsbD i = x0.getLsbD i

/-- Round trip at zero prescaler: a period of at most 65535 ticks gets exponent 0, the prescaler off and itself as the
interval (42_configure section 4, D00's property). -/
def Obligations.RoundTripAtZeroPrescaler : Prop :=
  ∀ (cfg : Config) (y : Word) (ext : Bool) (p : Nat), cfg.WellFormed → p ≤ 65535 →
    exponent p = 0 ∧ psEn cfg (clkval cfg y (exponent p) ext) = false ∧ (threshold p (exponent p)).toNat = p

/-! ## CONFIGURE: acceptance, failures, the sequence -/

/-- Acceptance of a CONFIGURE on an idle channel, in every lifecycle phase, and its three refusals in the order of the
checks (43_lifecycle section 1; the refusals are the spec's decisions D22, D23). -/
def Obligations.AcceptConfigure : Prop :=
  ∀ (s : State) ch (d p r : Word), s.busy ch = false →
    (d.toInt < 0 → exec (.configure ch d p r) s = .refused (.negativeDuty ch)) ∧
    (0 ≤ d.toInt → r = 0 → exec (.configure ch d p r) s = .refused (.rateNotPositive ch)) ∧
    (0 ≤ d.toInt → r ≠ 0 → 0 ≤ p.toInt → 2 ^ 32 ≤ ticks p.toNat r.toNat →
      exec (.configure ch d p r) s = .refused (.prescaleCodeNotDefined ch)) ∧
    (0 ≤ d.toInt → r ≠ 0 → (0 ≤ p.toInt → ticks p.toNat r.toNat < 2 ^ 32) →
      exec (.configure ch d p r) s = .next { s with
        chans := s.chans.set ch { s.chan ch with
          seq := { s.seq ch with
            op := .configure, polArg := .normal, dutyNs := d, periodNs := p, rateHz := r, pc := .cCheck } }
        script := s.script.tail })

/-- Acceptance of ENABLE, DISABLE and SET_POLARITY on an idle channel, in every lifecycle phase (43_lifecycle section 1). -/
def Obligations.AcceptOtherCommands : Prop :=
  ∀ (s : State) ch (p : Polarity), s.busy ch = false →
    exec (.enable ch) s = .next { s with
      chans := s.chans.set ch { s.chan ch with
        seq := { s.seq ch with op := .enable, polArg := .normal, pc := .eClk } }
      script := s.script.tail } ∧
    exec (.disable ch) s = .next { s with
      chans := s.chans.set ch { s.chan ch with
        seq := { s.seq ch with op := .disable, polArg := .normal, pc := .dRd } }
      script := s.script.tail } ∧
    exec (.setPolarity ch p) s = .next { s with
      chans := s.chans.set ch { s.chan ch with
        seq := { s.seq ch with op := .setPolarity, polArg := p, pc := .pSet } }
      script := s.script.tail }

/-- A negative period fails with `InvalidArgument` at `C_CHECK`, whatever the clock would answer, and leaves everything of
the channel but its sequencer, every other channel and the environment's answers as they were, with one `Done` event and no
access; nothing else raises it (60_exceptions R181). -/
def Obligations.NegativePeriodFails : Prop :=
  (∀ (s : State) ch (d p r : Word), s.busy ch = false → 0 ≤ d.toInt → r ≠ 0 → p.toInt < 0 →
    ∃ t, exec (.configure ch d p r) s = .next t ∧
      (microStep ch t).chans = s.chans.set ch { s.chan ch with seq := (microStep ch t).seq ch } ∧
      ((microStep ch t).seq ch).pc = .idle ∧ ((microStep ch t).seq ch).status = .invalidArgument ∧
      ((microStep ch t).seq ch).status.code = 1 ∧
      (microStep ch t).trace = s.trace ++ [.done ch .configure .invalidArgument] ∧
      (microStep ch t).clkFail = s.clkFail) ∧
  (∀ (s : State) ch op, (microStep ch s).trace = s.trace ++ [.done ch op .invalidArgument] →
    (s.seq ch).pc = .cCheck ∧ (s.seq ch).periodNs.toInt < 0)

/-- A clock that cannot be started fails CONFIGURE and ENABLE with `ClockUnavailable` before any access: everything of the
channel but its sequencer is as before, `clk_on` included; nothing else raises it (60_exceptions R182). -/
def Obligations.ClockFailureChangesNothing : Prop :=
  (∀ (s : State) ch (d p r : Word), s.busy ch = false → 0 ≤ d.toInt → r ≠ 0 → 0 ≤ p.toInt →
    ticks p.toNat r.toNat < 2 ^ 32 → s.clkFail.get ch = true →
    ∃ t, exec (.configure ch d p r) s = .next t ∧
      (microSteps ch 2 t).chans = s.chans.set ch { s.chan ch with seq := (microSteps ch 2 t).seq ch } ∧
      ((microSteps ch 2 t).seq ch).pc = .idle ∧ ((microSteps ch 2 t).seq ch).status = .clockUnavailable ∧
      ((microSteps ch 2 t).seq ch).status.code = 2 ∧
      (microSteps ch 2 t).trace = s.trace ++ [.done ch .configure .clockUnavailable]) ∧
  (∀ (s : State) ch, s.busy ch = false → s.clkFail.get ch = true →
    ∃ t, exec (.enable ch) s = .next t ∧
      (microStep ch t).chans = s.chans.set ch { s.chan ch with seq := (microStep ch t).seq ch } ∧
      ((microStep ch t).seq ch).pc = .idle ∧ ((microStep ch t).seq ch).status = .clockUnavailable ∧
      ((microStep ch t).seq ch).status.code = 2 ∧
      (microStep ch t).trace = s.trace ++ [.done ch .enable .clockUnavailable]) ∧
  (∀ (s : State) ch op, (microStep ch s).trace = s.trace ++ [.done ch op .clockUnavailable] →
    ((s.seq ch).pc = .cClk ∨ (s.seq ch).pc = .eClk) ∧ s.clkFail.get ch = true)

/-- The micro-steps of CONFIGURE, one by one, in every state that stands before them (42_configure R136 to R146; checking
before the clock is decision D18, the one rate for both computations D20). -/
def Obligations.ConfigureMicroSteps : Prop :=
  ∀ (s : State) ch (c : Channel) (q : Seq), c = s.chan ch → q = c.seq →
    (q.pc = .cCheck → q.periodNs.toInt < 0 → microStep ch s = { s with
      chans := s.chans.set ch { c with seq := { q with status := .invalidArgument, pc := .idle } }
      trace := s.trace ++ [.done ch q.op .invalidArgument] }) ∧
    (q.pc = .cCheck → 0 ≤ q.periodNs.toInt → microStep ch s = { s with
      chans := s.chans.set ch { c with seq := { q with pc := .cClk } } }) ∧
    (q.pc = .cClk → s.clkFail.get ch = false → microStep ch s = { s with
      chans := s.chans.set ch { c with clkOn := true, seq := { q with pc := .cRdCnt } } }) ∧
    (q.pc = .cClk → s.clkFail.get ch = true → microStep ch s = { s with
      chans := s.chans.set ch { c with seq := { q with status := .clockUnavailable, pc := .idle } }
      trace := s.trace ++ [.done ch q.op .clockUnavailable], clkFail := s.clkFail.set ch false }) ∧
    (q.pc = .cRdCnt → microStep ch s = { s with
      chans := s.chans.set ch { c with seq := { q with x0 := c.cntCtrl, pc := .cWrQuiesce } }
      trace := s.trace ++ [.acc .R c.cntCtrl ch .cntCtrl] }) ∧
    (q.pc = .cWrQuiesce → microStep ch s = { s with
      chans := s.chans.set ch { c with
        cntCtrl := (q.x0 ||| BitVec.twoPow 32 s.cfg.cnt.dis) &&& s.cfg.cntImplMask
        seq := { q with pc := .cCalcP } }
      trace := s.trace ++ [.acc .W (q.x0 ||| BitVec.twoPow 32 s.cfg.cnt.dis) ch .cntCtrl] }) ∧
    (q.pc = .cCalcP → microStep ch s = { s with
      chans := s.chans.set ch { c with seq := { q with
        pclk := BitVec.ofNat 64 (ticks q.periodNs.toNat q.rateHz.toNat)
        e := BitVec.ofNat 5 (exponent (ticks q.periodNs.toNat q.rateHz.toNat)), pc := .cRdClk } } }) ∧
    (q.pc = .cRdClk → microStep ch s = { s with
      chans := s.chans.set ch { c with seq := { q with y := c.clkCtrl, pc := .cWrClk } }
      trace := s.trace ++ [.acc .R c.clkCtrl ch .clkCtrl] }) ∧
    (q.pc = .cWrClk → microStep ch s = { s with
      chans := s.chans.set ch { c with
        clkCtrl := clkval s.cfg q.y q.e.toNat (s.cfg.extClk.get ch) &&& s.cfg.clkImplMask
        seq := { q with pc := .cCalcD } }
      trace := s.trace ++ [.acc .W (clkval s.cfg q.y q.e.toNat (s.cfg.extClk.get ch)) ch .clkCtrl] }) ∧
    (q.pc = .cCalcD → microStep ch s = { s with
      chans := s.chans.set ch { c with seq := { q with
        dclk := BitVec.ofNat 64 (ticks q.dutyNs.toNat q.rateHz.toNat)
        icnt := threshold q.pclk.toNat q.e.toNat
        mcnt := threshold (ticks q.dutyNs.toNat q.rateHz.toNat) q.e.toNat, pc := .cWrInt } } }) ∧
    (q.pc = .cWrInt → microStep ch s = { s with
      chans := s.chans.set ch { c with interval := q.icnt, seq := { q with pc := .cWrM1 } }
      trace := s.trace ++ [.acc .W (q.icnt.setWidth 32) ch .interval] }) ∧
    (q.pc = .cWrM1 → microStep ch s = { s with
      chans := s.chans.set ch { c with match1 := q.mcnt, seq := { q with pc := .cWrRestore } }
      trace := s.trace ++ [.acc .W (q.mcnt.setWidth 32) ch .match1] }) ∧
    (q.pc = .cWrRestore → microStep ch s = { s with
      chans := s.chans.set ch { c with
        cntCtrl := cntval s.cfg q.x0 c.pol &&& s.cfg.cntImplMask
        last := some { e := q.e, intervalCount := q.icnt, matchCount := q.mcnt }
        phase := if c.phase = .enabled then .enabled else .configured
        seq := { q with status := .ok, pc := .idle } }
      trace := s.trace ++ [.acc .W (cntval s.cfg q.x0 c.pol) ch .cntCtrl, .done ch q.op .ok] })

/-- CONFIGURE run to completion with nothing between its micro-steps: the seven accesses in order with their values, the
registers, the clock, the last-applied record, the phase and the status (42_configure R138 to R146). -/
def Obligations.ConfigureSequence : Prop :=
  ∀ (s : State) ch (d p r : Word) (e pc dc : Nat) (clk : Word),
    s.cfg.WellFormed → s.busy ch = false → 0 ≤ d.toInt → r ≠ 0 → 0 ≤ p.toInt → s.clkFail.get ch = false →
    pc = p.toNat * r.toNat / 1000000000 → pc < 2 ^ 32 → dc = d.toNat * r.toNat / 1000000000 → e = exponent pc →
    clk = clkval s.cfg (s.chan ch).clkCtrl e (s.cfg.extClk.get ch) →
    ∃ t, exec (.configure ch d p r) s = .next t ∧
      (microSteps ch 11 t).chans = s.chans.set ch { s.chan ch with
        clkCtrl := clk &&& s.cfg.clkImplMask
        cntCtrl := cntval s.cfg (s.chan ch).cntCtrl (s.chan ch).pol &&& s.cfg.cntImplMask
        interval := threshold pc e
        match1 := threshold dc e
        clkOn := true
        last := some { e := BitVec.ofNat 5 e, intervalCount := threshold pc e, matchCount := threshold dc e }
        phase := if (s.chan ch).phase = .enabled then .enabled else .configured
        seq := (microSteps ch 11 t).seq ch } ∧
      ((microSteps ch 11 t).seq ch).pc = .idle ∧ ((microSteps ch 11 t).seq ch).status = .ok ∧
      (microSteps ch 11 t).trace = s.trace ++
        [.acc .R (s.chan ch).cntCtrl ch .cntCtrl,
         .acc .W ((s.chan ch).cntCtrl ||| BitVec.twoPow 32 s.cfg.cnt.dis) ch .cntCtrl,
         .acc .R (s.chan ch).clkCtrl ch .clkCtrl,
         .acc .W clk ch .clkCtrl,
         .acc .W ((threshold pc e).setWidth 32) ch .interval,
         .acc .W ((threshold dc e).setWidth 32) ch .match1,
         .acc .W (cntval s.cfg (s.chan ch).cntCtrl (s.chan ch).pol) ch .cntCtrl,
         .done ch .configure .ok] ∧
      (microSteps ch 11 t).script = s.script.tail

/-- Whatever clock edges and other agents' steps fell inside a CONFIGURE, its last micro-step leaves the channel as the
spec says: counting and waveform disable bits as read at the start, interval mode, match and reset request set, counting up,
the latched polarity, the new thresholds, the new prescaler setting (42_configure section 4, derived there). -/
def Obligations.ConfigureResultUnderInterleaving : Prop :=
  ∀ (s : State) ch, s.Inv → (s.seq ch).pc = .cWrRestore →
    let q := s.seq ch
    let c := (microStep ch s).chan ch
    c.seq.pc = .idle ∧ c.seq.status = .ok ∧ c.clkOn = true ∧
    dis s.cfg c.cntCtrl = dis s.cfg q.x0 ∧ waveDis s.cfg c.cntCtrl = waveDis s.cfg q.x0 ∧
    int s.cfg c.cntCtrl = true ∧ matchEn s.cfg c.cntCtrl = true ∧ dec s.cfg c.cntCtrl = false ∧
    rst s.cfg c.cntCtrl = true ∧ wavePol s.cfg c.cntCtrl = decide (c.pol = .normal) ∧
    c.interval.toNat = ticks q.periodNs.toNat q.rateHz.toNat >>> exponent (ticks q.periodNs.toNat q.rateHz.toNat) ∧
    c.match1.toNat =
      ticks q.dutyNs.toNat q.rateHz.toNat >>> exponent (ticks q.periodNs.toNat q.rateHz.toNat) % 65536 ∧
    psEn s.cfg c.clkCtrl = decide (exponent (ticks q.periodNs.toNat q.rateHz.toNat) ≠ 0) ∧
    psV s.cfg c.clkCtrl = exponent (ticks q.periodNs.toNat q.rateHz.toNat) - 1 ∧
    c.clkCtrl.getLsbD s.cfg.clk.cSrc = s.cfg.extClk.get ch

/-- From the quiesce write to the restore write no clock edge advances the counter: an edge changes nothing, or carries out
a reset request that was already pending (42_configure section 3, derived there; 70_reset_and_hazards section 3). -/
def Obligations.QuiescedCounterStandsStill : Prop :=
  ∀ (s : State) ch, s.Inv → (s.seq ch).ConfigureFrom 5 →
    ∃ t, exec (.edge ch) s = .next t ∧
      (rst s.cfg (s.chan ch).cntCtrl = false → t.chans = s.chans) ∧
      (rst s.cfg (s.chan ch).cntCtrl = true → (t.chan ch).counter = 0 ∧ (t.chan ch).psCnt = 0)

/-- A command reaches completion in at most 11 of its own micro-steps (43_lifecycle R172). -/
def Obligations.CommandsComplete : Prop :=
  ∀ (s : State) ch, (microSteps ch 11 s).busy ch = false

/-! ## ENABLE, DISABLE, SET_POLARITY, TEARDOWN -/

/-- The micro-steps of ENABLE, DISABLE and SET_POLARITY, one by one, in every state that stands before them (43_lifecycle
R161 to R163, R165 to R167, R169; ENABLE leaves the polarity alone by decision D17). -/
def Obligations.LifecycleMicroSteps : Prop :=
  ∀ (s : State) ch (c : Channel) (q : Seq), c = s.chan ch → q = c.seq →
    (q.pc = .eClk → s.clkFail.get ch = false → microStep ch s = { s with
      chans := s.chans.set ch { c with clkOn := true, seq := { q with pc := .eRd } } }) ∧
    (q.pc = .eClk → s.clkFail.get ch = true → microStep ch s = { s with
      chans := s.chans.set ch { c with seq := { q with status := .clockUnavailable, pc := .idle } }
      trace := s.trace ++ [.done ch q.op .clockUnavailable], clkFail := s.clkFail.set ch false }) ∧
    (q.pc = .eRd → microStep ch s = { s with
      chans := s.chans.set ch { c with seq := { q with x := c.cntCtrl, pc := .eWr } }
      trace := s.trace ++ [.acc .R c.cntCtrl ch .cntCtrl] }) ∧
    (q.pc = .eWr → ∀ v,
      v = (q.x &&& ~~~(BitVec.twoPow 32 s.cfg.cnt.dis ||| BitVec.twoPow 32 s.cfg.cnt.waveDis)) |||
        BitVec.twoPow 32 s.cfg.cnt.rst →
      microStep ch s = { s with
        chans := s.chans.set ch { c with
          cntCtrl := v &&& s.cfg.cntImplMask, phase := .enabled, seq := { q with status := .ok, pc := .idle } }
        trace := s.trace ++ [.acc .W v ch .cntCtrl, .done ch q.op .ok] }) ∧
    (q.pc = .dRd → microStep ch s = { s with
      chans := s.chans.set ch { c with seq := { q with x := c.cntCtrl, pc := .dWr } }
      trace := s.trace ++ [.acc .R c.cntCtrl ch .cntCtrl] }) ∧
    (q.pc = .dWr → ∀ v, v = q.x ||| BitVec.twoPow 32 s.cfg.cnt.dis ||| BitVec.twoPow 32 s.cfg.cnt.waveDis →
      microStep ch s = { s with
        chans := s.chans.set ch { c with cntCtrl := v &&& s.cfg.cntImplMask, seq := { q with pc := .dClkoff } }
        trace := s.trace ++ [.acc .W v ch .cntCtrl] }) ∧
    (q.pc = .dClkoff → microStep ch s = { s with
      chans := s.chans.set ch { c with
        clkOn := false, phase := .disabled, seq := { q with status := .ok, pc := .idle } }
      trace := s.trace ++ [.done ch q.op .ok] }) ∧
    (q.pc = .pSet → microStep ch s = { s with
      chans := s.chans.set ch { c with pol := q.polArg, seq := { q with status := .ok, pc := .idle } }
      trace := s.trace ++ [.done ch q.op .ok] })

/-- ENABLE run to completion (43_lifecycle R161, R162, R163; that the polarity is not applied is the resolution of conflict
C2). -/
def Obligations.EnableSequence : Prop :=
  ∀ (s : State) ch (v : Word), s.busy ch = false → s.clkFail.get ch = false →
    v = ((s.chan ch).cntCtrl &&& ~~~(BitVec.twoPow 32 s.cfg.cnt.dis) &&& ~~~(BitVec.twoPow 32 s.cfg.cnt.waveDis)) |||
      BitVec.twoPow 32 s.cfg.cnt.rst →
    ∃ t, exec (.enable ch) s = .next t ∧
      (microSteps ch 3 t).chans = s.chans.set ch { s.chan ch with
        cntCtrl := v &&& s.cfg.cntImplMask, clkOn := true, phase := .enabled, seq := (microSteps ch 3 t).seq ch } ∧
      ((microSteps ch 3 t).seq ch).pc = .idle ∧ ((microSteps ch 3 t).seq ch).status = .ok ∧
      (microSteps ch 3 t).trace = s.trace ++
        [.acc .R (s.chan ch).cntCtrl ch .cntCtrl, .acc .W v ch .cntCtrl, .done ch .enable .ok] ∧
      (microSteps ch 3 t).script = s.script.tail

/-- DISABLE run to completion: it never fails, whatever the clock would answer (43_lifecycle R165, R166, R167). -/
def Obligations.DisableSequence : Prop :=
  ∀ (s : State) ch (v : Word), s.busy ch = false →
    v = (s.chan ch).cntCtrl ||| BitVec.twoPow 32 s.cfg.cnt.dis ||| BitVec.twoPow 32 s.cfg.cnt.waveDis →
    ∃ t, exec (.disable ch) s = .next t ∧
      (microSteps ch 3 t).chans = s.chans.set ch { s.chan ch with
        cntCtrl := v &&& s.cfg.cntImplMask, clkOn := false, phase := .disabled, seq := (microSteps ch 3 t).seq ch } ∧
      ((microSteps ch 3 t).seq ch).pc = .idle ∧ ((microSteps ch 3 t).seq ch).status = .ok ∧
      (microSteps ch 3 t).trace = s.trace ++
        [.acc .R (s.chan ch).cntCtrl ch .cntCtrl, .acc .W v ch .cntCtrl, .done ch .disable .ok] ∧
      (microSteps ch 3 t).clkFail = s.clkFail ∧ (microSteps ch 3 t).script = s.script.tail

/-- A second DISABLE changes nothing of any channel (43_lifecycle section 3, derived there; D00's idempotence). -/
def Obligations.DisableIsIdempotent : Prop :=
  ∀ (s t u : State) ch, s.cfg.WellFormed → s.busy ch = false →
    exec (.disable ch) s = .next t → exec (.disable ch) (microSteps ch 3 t) = .next u →
    (∀ ch', ch' ≠ ch → (microSteps ch 3 u).chan ch' = (microSteps ch 3 t).chan ch') ∧
    ∃ q, (microSteps ch 3 u).chan ch = { (microSteps ch 3 t).chan ch with seq := q }

/-- SET_POLARITY latches the polarity and touches no register, no clock and no phase (43_lifecycle R169). -/
def Obligations.SetPolarityOnlyLatches : Prop :=
  ∀ (s : State) ch (p : Polarity), s.busy ch = false →
    ∃ t, exec (.setPolarity ch p) s = .next t ∧
      (microStep ch t).chans = s.chans.set ch { s.chan ch with pol := p, seq := (microStep ch t).seq ch } ∧
      ((microStep ch t).seq ch).pc = .idle ∧ ((microStep ch t).seq ch).status = .ok ∧
      (microStep ch t).trace = s.trace ++ [.done ch .setPolarity .ok] ∧
      (microStep ch t).clkFail = s.clkFail ∧
      (microStep ch t).waveOut ch = s.waveOut ch

/-- TEARDOWN is DISABLE 0, 1, 2 in that order, each to completion: from an idle machine it takes 16 steps and leaves every
channel stopped, disconnected, unclocked and `Disabled` (43_lifecycle section 5, 30_encoding section 6; the order is decision
D30). The expansion at the level of the script, with its await items, is the model's DESIGN CHOICE (log 12), and the count of
16 steps is that of the model's scheduling (log 8). -/
def Obligations.TeardownDisablesEveryChannel : Prop :=
  ∀ (s : State) rest, s.cfg.WellFormed → s.Unstopped → s.script = .teardown :: rest → (∀ ch, s.busy ch = false) →
    exec .teardown s = .next { s with
      script := [encode s.cfg (.disable .c0), .cue (.await .c0), encode s.cfg (.disable .c1), .cue (.await .c1),
        encode s.cfg (.disable .c2), .cue (.await .c2)] ++ rest } ∧
    (advances 16 s).script = rest ∧ (advances 16 s).Unstopped ∧
    ∀ ch, (advances 16 s).busy ch = false ∧
      dis s.cfg ((advances 16 s).chan ch).cntCtrl = true ∧ waveDis s.cfg ((advances 16 s).chan ch).cntCtrl = true ∧
      ((advances 16 s).chan ch).clkOn = false ∧ ((advances 16 s).chan ch).phase = .disabled

/-! ## Who writes what -/

/-- The counter, the prescaler phase and the waveform phase are written by the timer channel only: a step that changes one
of them is a clock edge of that channel with its clock running (10_state sections 2 and 3). -/
def Obligations.OnlyEdgesMoveTheTimer : Prop :=
  ∀ (s t : State) ch, step s = .next t →
    (t.chan ch).counter ≠ (s.chan ch).counter ∨ (t.chan ch).psCnt ≠ (s.chan ch).psCnt ∨
      (t.chan ch).active ≠ (s.chan ch).active →
    fetch s = some (.instr (.edge ch)) ∧ (s.chan ch).clkOn = true

/-- The clock gate is set by a successful `C_CLK` or `E_CLK` and cleared by `D_CLKOFF`; "nothing else wakes or stops a
channel" (60_exceptions section 6, derived there; decision D19). -/
def Obligations.OnlySequencersGateTheClock : Prop :=
  ∀ (s t : State) ch, step s = .next t → (t.chan ch).clkOn ≠ (s.chan ch).clkOn →
    ((t.chan ch).clkOn = true ∧ ((s.seq ch).pc = .cClk ∨ (s.seq ch).pc = .eClk) ∧ s.clkFail.get ch = false) ∨
    ((t.chan ch).clkOn = false ∧ (s.seq ch).pc = .dClkoff)

/-- The channel record: the polarity is written only by `P_SET`, the last-applied triple only by the end of a CONFIGURE, the
phase only by completed commands with status `OK`, as the table says (10_state section 4, 43_lifecycle section 6). -/
def Obligations.OnlyCompletionsWriteTheRecord : Prop :=
  ∀ (s t : State) ch, step s = .next t →
    ((t.chan ch).pol ≠ (s.chan ch).pol → (s.seq ch).pc = .pSet ∧ (t.chan ch).pol = (s.seq ch).polArg) ∧
    ((t.chan ch).last ≠ (s.chan ch).last → (s.seq ch).pc = .cWrRestore ∧
      (t.chan ch).last = some { e := (s.seq ch).e, intervalCount := (s.seq ch).icnt, matchCount := (s.seq ch).mcnt }) ∧
    ((t.chan ch).phase ≠ (s.chan ch).phase → (t.seq ch).pc = .idle ∧ (t.seq ch).status = .ok ∧
      (((s.seq ch).pc = .cWrRestore ∧ (s.chan ch).phase = .disabled ∧ (t.chan ch).phase = .configured) ∨
       ((s.seq ch).pc = .eWr ∧ (t.chan ch).phase = .enabled) ∨
       ((s.seq ch).pc = .dClkoff ∧ (t.chan ch).phase = .disabled)))

/-! ## Channels -/

/-- No step of a channel writes another channel's state, or reads it: its own channel's next state is the same whatever the
other channels hold (10_state section 1). -/
def Obligations.ChannelsAreIsolated : Prop :=
  (∀ (s : State) ch ch', ch' ≠ ch → (microStep ch s).chan ch' = s.chan ch') ∧
  (∀ (s t : State) i ch ch', OnChannel i ch → exec i s = .next t → ch' ≠ ch → t.chan ch' = s.chan ch') ∧
  (∀ (s u : State) ch, s.cfg = u.cfg → s.chan ch = u.chan ch → s.clkFail.get ch = u.clkFail.get ch →
    (microStep ch s).chan ch = (microStep ch u).chan ch) ∧
  (∀ (s u t : State) i ch, OnChannel i ch → s.cfg = u.cfg → s.chan ch = u.chan ch →
    s.clkFail.get ch = u.clkFail.get ch → exec i s = .next t →
    ∃ v, exec i u = .next v ∧ v.chan ch = t.chan ch)

/-- Micro-steps of different channels commute, in everything but the order of their events in the trace (20_memory section
4, derived there). -/
def Obligations.ChannelsCommute : Prop :=
  ∀ (s : State) a b, a ≠ b →
    (microStep a (microStep b s)).chans = (microStep b (microStep a s)).chans ∧
    (microStep a (microStep b s)).clkFail = (microStep b (microStep a s)).clkFail

/-! ## Invariants -/

/-- Every step keeps the invariant of the machine (`State.Inv`, Safety.lean): implemented bits only, an exponent of at most
16, contract and latches of the command in progress, clock before registers and registers before clock-off, the quiesced
counter-control value, the computed and the written thresholds (10_state, 42_configure section 3, 70_reset_and_hazards). -/
def Obligations.InvariantIsKept : Prop :=
  ∀ s t : State, s.Inv → step s = .next t → t.Inv

/-- The invariant holds after reset, for every well-formed choice of parameters, and the defaults are well-formed. -/
def Obligations.InvariantAtReset : Prop :=
  (∀ cfg : Config, cfg.WellFormed → (State.resetWith cfg).Inv) ∧ Config.default.WellFormed ∧ State.reset.Inv

/-- With registers written by commands only, every step keeps the lifecycle invariant: the phase goes with the disable bits
and the clock, and the last-applied parameters are in the registers (43_lifecycle section 6, derived there). -/
def Obligations.LifecycleIsKept : Prop :=
  ∀ s t : State, s.Inv → s.Lifecycle → s.NoRawWrite → step s = .next t → t.Lifecycle

/-- The lifecycle invariant holds after reset, and at an idle channel it says what the spec lists (43_lifecycle section 6,
derived there). -/
def Obligations.LifecycleAtResetAndIdle : Prop :=
  (∀ cfg : Config, cfg.WellFormed → (State.resetWith cfg).Lifecycle) ∧
  (∀ (s : State) ch, s.Lifecycle → s.busy ch = false → IdleFacts s.cfg (s.chan ch))

/-- What reset leaves, for every choice of parameters (10_state R30, R200; values D00 does not give are the spec's decision
D4). Latches, working registers and status are not stated: the spec gives them none (log 6). -/
def Obligations.ResetValues : Prop :=
  ∀ (cfg : Config) ch,
    ((State.resetWith cfg).chan ch).clkCtrl = 0 ∧
    ((State.resetWith cfg).chan ch).cntCtrl =
      BitVec.twoPow 32 cfg.cnt.dis ||| BitVec.twoPow 32 cfg.cnt.waveDis ∧
    ((State.resetWith cfg).chan ch).counter = 0 ∧ ((State.resetWith cfg).chan ch).interval = 0 ∧
    ((State.resetWith cfg).chan ch).match1 = 0 ∧ ((State.resetWith cfg).chan ch).match2 = 0 ∧
    ((State.resetWith cfg).chan ch).match3 = 0 ∧ ((State.resetWith cfg).chan ch).psCnt = 0 ∧
    ((State.resetWith cfg).chan ch).active = true ∧ ((State.resetWith cfg).chan ch).clkOn = false ∧
    ((State.resetWith cfg).chan ch).pol = .normal ∧ ((State.resetWith cfg).chan ch).last = none ∧
    ((State.resetWith cfg).chan ch).phase = .disabled ∧ ((State.resetWith cfg).seq ch).pc = .idle ∧
    (State.resetWith cfg).faulted = false ∧ (State.resetWith cfg).refused = false ∧
    (State.resetWith cfg).trace = [] ∧ State.reset = State.resetWith Config.default
end

