-- ==== Sys2Proof/Laws/Bits.lean ====
section
/-! SUPPORT. The bits of a register after setting, clearing and masking; the control-register values of the commands, field
by field, in any well-formed layout. -/

namespace Sys2Proof.Machine

/-! ## One bit -/

/-- Two words with the same bits are equal. -/
theorem word_ext {v w : Word} (h : ∀ i, testBit v i = testBit w i) : v = w :=
  BitVec.eq_of_getLsbD_eq fun i _ => h i

@[simp] theorem testBit_zero (i : Nat) : testBit 0#32 i = false := by simp [testBit]

@[simp] theorem testBit_and (v w : Word) (i : Nat) : testBit (v &&& w) i = (testBit v i && testBit w i) := by
  simp [testBit]

@[simp] theorem testBit_or (v w : Word) (i : Nat) : testBit (v ||| w) i = (testBit v i || testBit w i) := by
  simp [testBit]

theorem testBit_not (w : Word) (i : Nat) : testBit (~~~w) i = (decide (i < 32) && !testBit w i) := by
  simp [testBit]

theorem testBit_bitMask (i j : Nat) : testBit (bitMask i) j = (decide (i < 32) && decide (i = j)) := by
  simp [testBit, bitMask, BitVec.getLsbD_twoPow]

/-- A set bit has a position below 32. -/
theorem lt_of_testBit {w : Word} {i : Nat} (h : testBit w i = true) : i < 32 := by
  by_contra hi
  simp [testBit, BitVec.getLsbD_of_ge w i (by omega)] at h

theorem testBit_of_ge (w : Word) {i : Nat} (h : 32 ≤ i) : testBit w i = false := BitVec.getLsbD_of_ge w i h

theorem testBit_setBit (w : Word) (i j : Nat) :
    testBit (setBit w i) j = (testBit w j || (decide (i < 32) && decide (i = j))) := by
  simp [setBit, testBit_bitMask]

theorem testBit_clearBit (w : Word) (i j : Nat) : testBit (clearBit w i) j = (testBit w j && !decide (i = j)) := by
  by_cases hj : j < 32
  · by_cases h : i = j
    · subst h
      simp [clearBit, testBit_not, testBit_bitMask, hj]
    · simp [clearBit, testBit_not, testBit_bitMask, hj, h]
  · simp [testBit_of_ge _ (Nat.le_of_not_lt hj)]

@[simp] theorem testBit_setBit_self (w : Word) {i : Nat} (h : i < 32) : testBit (setBit w i) i = true := by
  simp [testBit_setBit, h]

theorem testBit_setBit_ne (w : Word) {i j : Nat} (h : i ≠ j) : testBit (setBit w i) j = testBit w j := by
  simp [testBit_setBit, h]

@[simp] theorem testBit_clearBit_self (w : Word) (i : Nat) : testBit (clearBit w i) i = false := by
  simp [testBit_clearBit]

theorem testBit_clearBit_ne (w : Word) {i j : Nat} (h : i ≠ j) : testBit (clearBit w i) j = testBit w j := by
  simp [testBit_clearBit, h]

theorem testBit_putBit_self (w : Word) {i : Nat} (b : Bool) (h : i < 32) : testBit (putBit w i b) i = b := by
  cases b <;> simp [putBit, h]

theorem testBit_putBit_ne (w : Word) {i j : Nat} (b : Bool) (h : i ≠ j) : testBit (putBit w i b) j = testBit w j := by
  cases b <;> simp [putBit, testBit_setBit_ne _ h, testBit_clearBit_ne _ h]

@[simp] theorem clearBit_clearBit (w : Word) (i : Nat) : clearBit (clearBit w i) i = clearBit w i :=
  word_ext fun j => by simp [testBit_clearBit]

/-- Clearing a bit forgets what the bit was, and nothing else. -/
theorem clearBit_eq_iff (v w : Word) (i : Nat) :
    clearBit v i = clearBit w i ↔ ∀ j, j ≠ i → testBit v j = testBit w j := by
  constructor
  · intro h j hj
    rw [← testBit_clearBit_ne v (Ne.symm hj), h, testBit_clearBit_ne w (Ne.symm hj)]
  · intro h
    refine word_ext fun j => ?_
    by_cases hj : i = j
    · subst hj
      simp
    · rw [testBit_clearBit_ne _ hj, testBit_clearBit_ne _ hj, h j (Ne.symm hj)]

/-! ## Masks of implemented bits -/

/-- A word inside a mask: no bit outside it is set. -/
theorem masked_iff (w m : Word) : w &&& ~~~m = 0 ↔ ∀ i, testBit w i = true → testBit m i = true := by
  constructor
  · intro h i hi
    have hb := congrArg (testBit · i) h
    simp [testBit_not, lt_of_testBit hi, hi] at hb
    exact hb
  · intro h
    refine word_ext fun i => ?_
    by_cases hi : testBit w i = true
    · simp [testBit_not, hi, h i hi]
    · simp [Bool.eq_false_iff.mpr hi]

theorem masked_and (w m : Word) : (w &&& m) &&& ~~~m = 0 :=
  (masked_iff _ _).mpr fun i h => by simp at h; exact h.2

theorem masked_eq {w m : Word} (h : w &&& ~~~m = 0) : w &&& m = w :=
  word_ext fun i => by
    by_cases hi : testBit w i = true
    · simp [hi, (masked_iff w m).mp h i hi]
    · simp [Bool.eq_false_iff.mpr hi]

theorem masked_setBit {w m : Word} {i : Nat} (h : w &&& ~~~m = 0) (hi : testBit m i = true) :
    setBit w i &&& ~~~m = 0 :=
  (masked_iff _ _).mpr fun j hj => by
    by_cases hij : i = j
    · exact hij ▸ hi
    · rw [testBit_setBit_ne _ hij] at hj
      exact (masked_iff w m).mp h j hj

theorem masked_clearBit {w m : Word} {i : Nat} (h : w &&& ~~~m = 0) : clearBit w i &&& ~~~m = 0 :=
  (masked_iff _ _).mpr fun j hj => by
    simp [testBit_clearBit] at hj
    exact (masked_iff w m).mp h j hj.1

theorem masked_putBit {w m : Word} {i : Nat} {b : Bool} (h : w &&& ~~~m = 0) (hi : testBit m i = true) :
    putBit w i b &&& ~~~m = 0 := by
  cases b
  · exact masked_clearBit h
  · exact masked_setBit h hi

/-- Masking a stored value does not touch an implemented bit. -/
theorem testBit_and_mask {m : Word} {i : Nat} (w : Word) (h : testBit m i = true) :
    testBit (w &&& m) i = testBit w i := by
  simp [h]

/-! ## The fields of `CNT_CTRL` in a well-formed layout -/

/-- Distinctness and position of the seven fields, one fact each. -/
theorem cnt_facts {c : Config} (h : c.CntOk) :
    (c.cnt.dis ≠ c.cnt.int ∧ c.cnt.dis ≠ c.cnt.dec ∧ c.cnt.dis ≠ c.cnt.matchEn ∧ c.cnt.dis ≠ c.cnt.rst ∧
      c.cnt.dis ≠ c.cnt.waveDis ∧ c.cnt.dis ≠ c.cnt.wavePol) ∧
    (c.cnt.int ≠ c.cnt.dec ∧ c.cnt.int ≠ c.cnt.matchEn ∧ c.cnt.int ≠ c.cnt.rst ∧ c.cnt.int ≠ c.cnt.waveDis ∧
      c.cnt.int ≠ c.cnt.wavePol) ∧
    (c.cnt.dec ≠ c.cnt.matchEn ∧ c.cnt.dec ≠ c.cnt.rst ∧ c.cnt.dec ≠ c.cnt.waveDis ∧ c.cnt.dec ≠ c.cnt.wavePol) ∧
    (c.cnt.matchEn ≠ c.cnt.rst ∧ c.cnt.matchEn ≠ c.cnt.waveDis ∧ c.cnt.matchEn ≠ c.cnt.wavePol) ∧
    (c.cnt.rst ≠ c.cnt.waveDis ∧ c.cnt.rst ≠ c.cnt.wavePol) ∧ c.cnt.waveDis ≠ c.cnt.wavePol := by
  have hn := h.1
  simp [CntLayout.bits] at hn
  tauto

theorem cnt_mask {c : Config} (h : c.CntOk) {b : Nat} (hb : b ∈ c.cnt.bits) : testBit c.cntImplMask b = true := h.2 b hb

theorem cnt_lt {c : Config} (h : c.CntOk) {b : Nat} (hb : b ∈ c.cnt.bits) : b < 32 := lt_of_testBit (cnt_mask h hb)

/-- A field read through the mask of implemented bits is the field. -/
theorem field_and_mask {c : Config} (h : c.CntOk) {b : Nat} (hb : b ∈ c.cnt.bits) (w : Word) :
    testBit (w &&& c.cntImplMask) b = testBit w b := testBit_and_mask w (cnt_mask h hb)

end Sys2Proof.Machine
end

