-- ==== Sys2Proof/Laws/State.lean ====
section
/-! SUPPORT. The small lemmas of the state's updates: per update and field one lemma, true by `rfl`, so that no later proof
unfolds a record update; and reading a channel after writing one. -/

namespace Sys2Proof

/-! ## One entry per channel -/

variable {α : Type}

@[simp] theorem PerChan.get_set_self (p : PerChan α) (ch : Chan) (a : α) : (p.set ch a).get ch = a := by
  cases ch <;> rfl

theorem PerChan.get_set_ne (p : PerChan α) {ch ch' : Chan} (h : ch' ≠ ch) (a : α) :
    (p.set ch a).get ch' = p.get ch' := by
  cases ch <;> cases ch' <;> first | rfl | exact absurd rfl h

@[simp] theorem PerChan.set_set (p : PerChan α) (ch : Chan) (a b : α) : (p.set ch a).set ch b = p.set ch b := by
  cases ch <;> rfl

@[simp] theorem PerChan.set_get (p : PerChan α) (ch : Chan) : p.set ch (p.get ch) = p := by
  cases ch <;> rfl

@[simp] theorem PerChan.get_const (a : α) (ch : Chan) : (PerChan.const a).get ch = a := by
  cases ch <;> rfl

theorem PerChan.get_set (p : PerChan α) (ch ch' : Chan) (a : α) :
    (p.set ch a).get ch' = if ch' = ch then a else p.get ch' := by
  cases ch <;> cases ch' <;> rfl

/-- Two records with the same entries are equal. -/
theorem PerChan.ext_get {p q : PerChan α} (h : ∀ ch, p.get ch = q.get ch) : p = q := by
  cases p
  cases q
  simpa [PerChan.get] using ⟨h .c0, h .c1, h .c2⟩

namespace Machine

/-! ## Fields after an update -/

@[simp] theorem State.setChan_cfg (s : State) (ch : Chan) (c : Channel) : (s.setChan ch c).cfg = s.cfg := rfl
@[simp] theorem State.setChan_faulted (s : State) (ch : Chan) (c : Channel) : (s.setChan ch c).faulted = s.faulted := rfl
@[simp] theorem State.setChan_refused (s : State) (ch : Chan) (c : Channel) : (s.setChan ch c).refused = s.refused := rfl
@[simp] theorem State.setChan_trace (s : State) (ch : Chan) (c : Channel) : (s.setChan ch c).trace = s.trace := rfl
@[simp] theorem State.setChan_script (s : State) (ch : Chan) (c : Channel) : (s.setChan ch c).script = s.script := rfl
@[simp] theorem State.setChan_clkFail (s : State) (ch : Chan) (c : Channel) : (s.setChan ch c).clkFail = s.clkFail := rfl

@[simp] theorem State.setChan_chans (s : State) (ch : Chan) (c : Channel) : (s.setChan ch c).chans = s.chans.set ch c := rfl

@[simp] theorem State.record_cfg (s : State) (e : Event) : (s.record e).cfg = s.cfg := rfl
@[simp] theorem State.record_chans (s : State) (e : Event) : (s.record e).chans = s.chans := rfl
@[simp] theorem State.record_faulted (s : State) (e : Event) : (s.record e).faulted = s.faulted := rfl
@[simp] theorem State.record_refused (s : State) (e : Event) : (s.record e).refused = s.refused := rfl
@[simp] theorem State.record_script (s : State) (e : Event) : (s.record e).script = s.script := rfl
@[simp] theorem State.record_clkFail (s : State) (e : Event) : (s.record e).clkFail = s.clkFail := rfl

@[simp] theorem State.record_trace (s : State) (e : Event) : (s.record e).trace = s.trace ++ [e] := rfl

@[simp] theorem State.consume_cfg (s : State)  : (s.consume).cfg = s.cfg := rfl
@[simp] theorem State.consume_chans (s : State)  : (s.consume).chans = s.chans := rfl
@[simp] theorem State.consume_faulted (s : State)  : (s.consume).faulted = s.faulted := rfl
@[simp] theorem State.consume_refused (s : State)  : (s.consume).refused = s.refused := rfl
@[simp] theorem State.consume_trace (s : State)  : (s.consume).trace = s.trace := rfl
@[simp] theorem State.consume_clkFail (s : State)  : (s.consume).clkFail = s.clkFail := rfl

@[simp] theorem State.consume_script (s : State) : s.consume.script = s.script.tail := rfl

@[simp] theorem State.setSeq_cfg (s : State) (ch : Chan) (q : Seq) : (s.setSeq ch q).cfg = s.cfg := rfl
@[simp] theorem State.setSeq_faulted (s : State) (ch : Chan) (q : Seq) : (s.setSeq ch q).faulted = s.faulted := rfl
@[simp] theorem State.setSeq_refused (s : State) (ch : Chan) (q : Seq) : (s.setSeq ch q).refused = s.refused := rfl
@[simp] theorem State.setSeq_trace (s : State) (ch : Chan) (q : Seq) : (s.setSeq ch q).trace = s.trace := rfl
@[simp] theorem State.setSeq_script (s : State) (ch : Chan) (q : Seq) : (s.setSeq ch q).script = s.script := rfl
@[simp] theorem State.setSeq_clkFail (s : State) (ch : Chan) (q : Seq) : (s.setSeq ch q).clkFail = s.clkFail := rfl

@[simp] theorem State.goto_cfg (s : State) (ch : Chan) (pc : MicroState) : (s.goto ch pc).cfg = s.cfg := rfl
@[simp] theorem State.goto_faulted (s : State) (ch : Chan) (pc : MicroState) : (s.goto ch pc).faulted = s.faulted := rfl
@[simp] theorem State.goto_refused (s : State) (ch : Chan) (pc : MicroState) : (s.goto ch pc).refused = s.refused := rfl
@[simp] theorem State.goto_trace (s : State) (ch : Chan) (pc : MicroState) : (s.goto ch pc).trace = s.trace := rfl
@[simp] theorem State.goto_script (s : State) (ch : Chan) (pc : MicroState) : (s.goto ch pc).script = s.script := rfl
@[simp] theorem State.goto_clkFail (s : State) (ch : Chan) (pc : MicroState) : (s.goto ch pc).clkFail = s.clkFail := rfl

/-! ## Channels after an update -/

@[simp] theorem State.chan_record (s : State) (e : Event) (ch : Chan) : (s.record e).chan ch = s.chan ch := rfl
@[simp] theorem State.chan_consume (s : State) (ch : Chan) : s.consume.chan ch = s.chan ch := rfl
@[simp] theorem State.seq_record (s : State) (e : Event) (ch : Chan) : (s.record e).seq ch = s.seq ch := rfl
@[simp] theorem State.seq_consume (s : State) (ch : Chan) : s.consume.seq ch = s.seq ch := rfl
@[simp] theorem State.busy_record (s : State) (e : Event) (ch : Chan) : (s.record e).busy ch = s.busy ch := rfl
@[simp] theorem State.busy_consume (s : State) (ch : Chan) : s.consume.busy ch = s.busy ch := rfl

@[simp] theorem State.chan_setChan_self (s : State) (ch : Chan) (c : Channel) : (s.setChan ch c).chan ch = c := by
  simp [State.chan]

theorem State.chan_setChan_ne (s : State) {ch ch' : Chan} (h : ch' ≠ ch) (c : Channel) :
    (s.setChan ch c).chan ch' = s.chan ch' := by
  simp [State.chan, PerChan.get_set_ne _ h]

theorem State.chan_setChan (s : State) (ch ch' : Chan) (c : Channel) :
    (s.setChan ch c).chan ch' = if ch' = ch then c else s.chan ch' := by
  simp [State.chan, PerChan.get_set]

@[simp] theorem State.setChan_setChan (s : State) (ch : Chan) (c c' : Channel) :
    (s.setChan ch c).setChan ch c' = s.setChan ch c' := by
  simp [State.setChan]

@[simp] theorem State.setChan_chan (s : State) (ch : Chan) : s.setChan ch (s.chan ch) = s := by
  simp [State.setChan, State.chan]

@[simp] theorem State.seq_setChan_self (s : State) (ch : Chan) (c : Channel) : (s.setChan ch c).seq ch = c.seq := by
  simp [State.seq]

@[simp] theorem State.chan_setSeq_self (s : State) (ch : Chan) (q : Seq) :
    (s.setSeq ch q).chan ch = { s.chan ch with seq := q } := by
  simp [State.setSeq]

theorem State.chan_setSeq_ne (s : State) {ch ch' : Chan} (h : ch' ≠ ch) (q : Seq) :
    (s.setSeq ch q).chan ch' = s.chan ch' := by
  simp [State.setSeq, State.chan_setChan_ne _ h]

@[simp] theorem State.seq_setSeq_self (s : State) (ch : Chan) (q : Seq) : (s.setSeq ch q).seq ch = q := by
  simp [State.seq]

/-! ## Registers after a register write -/

@[simp] theorem Channel.writeReg_seq (c : Channel) (cfg : Config) (r : Reg) (v : Word) :
    (c.writeReg cfg r v).seq = c.seq := by
  cases r <;> rfl

@[simp] theorem State.seq_busWrite (s : State) (r : Reg) (ch : Chan) (v : Word) :
    (busWrite r ch v s).seq ch = s.seq ch := by
  simp [busWrite, State.seq]

/-! ## Idle and busy -/

theorem State.busy_eq_false {s : State} {ch : Chan} : s.busy ch = false ↔ (s.seq ch).pc = .idle := by
  simp [State.busy]

theorem State.busy_eq_true {s : State} {ch : Chan} : s.busy ch = true ↔ (s.seq ch).pc ≠ .idle := by
  simp [State.busy]

end Machine

end Sys2Proof
end

