-- ==== Sys2Proof/Laws/Ops.lean ====
section
/-! SUPPORT. The meanings of the access rows said once, by register and channel, and the cases of Instr: an access, a command,
TEARDOWN or EDGE. -/

namespace Sys2Proof.Machine

/-! ## The rows by register and channel -/

theorem exec_ofRead (r : Reg) (ch : Chan) (s : State) : exec (Instr.ofRead (.reg r) ch) s = rawRead r ch s := by
  cases r <;> cases ch <;> rfl

theorem exec_ofWrite (r : Reg) (ch : Chan) (v : Word) (s : State) :
    exec (Instr.ofWrite (.reg r) ch v) s = rawWrite r ch v s := by
  cases r <;> cases ch <;> rfl

theorem exec_ofRead_dead (d : DeadReg) (ch : Chan) (s : State) :
    exec (Instr.ofRead (.dead d) ch) s = .refused (.unmodelledKind d ch) := by
  cases d <;> cases ch <;> rfl

theorem exec_ofWrite_dead (d : DeadReg) (ch : Chan) (v : Word) (s : State) :
    exec (Instr.ofWrite (.dead d) ch v) s = .refused (.unmodelledKind d ch) := by
  cases d <;> cases ch <;> rfl

/-- Every instruction is a register access, a command, TEARDOWN or EDGE. -/
theorem Instr_cases (i : Instr) :
    (∃ k ch, i = Instr.ofRead k ch) ∨ (∃ k ch v, i = Instr.ofWrite k ch v) ∨
    (∃ ch d p r, i = .configure ch d p r) ∨ (∃ ch, i = .enable ch) ∨ (∃ ch, i = .disable ch) ∨
    (∃ ch p, i = .setPolarity ch p) ∨ i = .teardown ∨ (∃ ch, i = .edge ch) := by
  cases i
  case configure ch d p r => exact .inr (.inr (.inl ⟨ch, d, p, r, rfl⟩))
  case enable ch => exact .inr (.inr (.inr (.inl ⟨ch, rfl⟩)))
  case disable ch => exact .inr (.inr (.inr (.inr (.inl ⟨ch, rfl⟩))))
  case setPolarity ch p => exact .inr (.inr (.inr (.inr (.inr (.inl ⟨ch, p, rfl⟩)))))
  case teardown => exact .inr (.inr (.inr (.inr (.inr (.inr (.inl rfl))))))
  case edge ch => exact .inr (.inr (.inr (.inr (.inr (.inr (.inr ⟨ch, rfl⟩))))))
  all_goals first
    | exact .inl ⟨.reg .clkCtrl, .c0, rfl⟩ | exact .inl ⟨.reg .clkCtrl, .c1, rfl⟩ | exact .inl ⟨.reg .clkCtrl, .c2, rfl⟩
    | exact .inl ⟨.reg .cntCtrl, .c0, rfl⟩ | exact .inl ⟨.reg .cntCtrl, .c1, rfl⟩ | exact .inl ⟨.reg .cntCtrl, .c2, rfl⟩
    | exact .inl ⟨.reg .counterValue, .c0, rfl⟩ | exact .inl ⟨.reg .counterValue, .c1, rfl⟩
    | exact .inl ⟨.reg .counterValue, .c2, rfl⟩
    | exact .inl ⟨.reg .interval, .c0, rfl⟩ | exact .inl ⟨.reg .interval, .c1, rfl⟩
    | exact .inl ⟨.reg .interval, .c2, rfl⟩
    | exact .inl ⟨.reg .match1, .c0, rfl⟩ | exact .inl ⟨.reg .match1, .c1, rfl⟩ | exact .inl ⟨.reg .match1, .c2, rfl⟩
    | exact .inl ⟨.reg .match2, .c0, rfl⟩ | exact .inl ⟨.reg .match2, .c1, rfl⟩ | exact .inl ⟨.reg .match2, .c2, rfl⟩
    | exact .inl ⟨.reg .match3, .c0, rfl⟩ | exact .inl ⟨.reg .match3, .c1, rfl⟩ | exact .inl ⟨.reg .match3, .c2, rfl⟩
    | exact .inl ⟨.dead .irqStatus, .c0, rfl⟩ | exact .inl ⟨.dead .irqStatus, .c1, rfl⟩
    | exact .inl ⟨.dead .irqStatus, .c2, rfl⟩
    | exact .inl ⟨.dead .irqEnable, .c0, rfl⟩ | exact .inl ⟨.dead .irqEnable, .c1, rfl⟩
    | exact .inl ⟨.dead .irqEnable, .c2, rfl⟩
    | exact .inl ⟨.dead .eventCtrl, .c0, rfl⟩ | exact .inl ⟨.dead .eventCtrl, .c1, rfl⟩
    | exact .inl ⟨.dead .eventCtrl, .c2, rfl⟩
    | exact .inl ⟨.dead .eventReg, .c0, rfl⟩ | exact .inl ⟨.dead .eventReg, .c1, rfl⟩
    | exact .inl ⟨.dead .eventReg, .c2, rfl⟩
    | exact .inr (.inl ⟨.reg .clkCtrl, .c0, _, rfl⟩) | exact .inr (.inl ⟨.reg .clkCtrl, .c1, _, rfl⟩)
    | exact .inr (.inl ⟨.reg .clkCtrl, .c2, _, rfl⟩)
    | exact .inr (.inl ⟨.reg .cntCtrl, .c0, _, rfl⟩) | exact .inr (.inl ⟨.reg .cntCtrl, .c1, _, rfl⟩)
    | exact .inr (.inl ⟨.reg .cntCtrl, .c2, _, rfl⟩)
    | exact .inr (.inl ⟨.reg .counterValue, .c0, _, rfl⟩) | exact .inr (.inl ⟨.reg .counterValue, .c1, _, rfl⟩)
    | exact .inr (.inl ⟨.reg .counterValue, .c2, _, rfl⟩)
    | exact .inr (.inl ⟨.reg .interval, .c0, _, rfl⟩) | exact .inr (.inl ⟨.reg .interval, .c1, _, rfl⟩)
    | exact .inr (.inl ⟨.reg .interval, .c2, _, rfl⟩)
    | exact .inr (.inl ⟨.reg .match1, .c0, _, rfl⟩) | exact .inr (.inl ⟨.reg .match1, .c1, _, rfl⟩)
    | exact .inr (.inl ⟨.reg .match1, .c2, _, rfl⟩)
    | exact .inr (.inl ⟨.reg .match2, .c0, _, rfl⟩) | exact .inr (.inl ⟨.reg .match2, .c1, _, rfl⟩)
    | exact .inr (.inl ⟨.reg .match2, .c2, _, rfl⟩)
    | exact .inr (.inl ⟨.reg .match3, .c0, _, rfl⟩) | exact .inr (.inl ⟨.reg .match3, .c1, _, rfl⟩)
    | exact .inr (.inl ⟨.reg .match3, .c2, _, rfl⟩)
    | exact .inr (.inl ⟨.dead .irqStatus, .c0, _, rfl⟩) | exact .inr (.inl ⟨.dead .irqStatus, .c1, _, rfl⟩)
    | exact .inr (.inl ⟨.dead .irqStatus, .c2, _, rfl⟩)
    | exact .inr (.inl ⟨.dead .irqEnable, .c0, _, rfl⟩) | exact .inr (.inl ⟨.dead .irqEnable, .c1, _, rfl⟩)
    | exact .inr (.inl ⟨.dead .irqEnable, .c2, _, rfl⟩)
    | exact .inr (.inl ⟨.dead .eventCtrl, .c0, _, rfl⟩) | exact .inr (.inl ⟨.dead .eventCtrl, .c1, _, rfl⟩)
    | exact .inr (.inl ⟨.dead .eventCtrl, .c2, _, rfl⟩)
    | exact .inr (.inl ⟨.dead .eventReg, .c0, _, rfl⟩) | exact .inr (.inl ⟨.dead .eventReg, .c1, _, rfl⟩)
    | exact .inr (.inl ⟨.dead .eventReg, .c2, _, rfl⟩)

end Sys2Proof.Machine
end

