-- ==== Sys2Proof/Laws/Encoding.lean ====
section
/-! SUPPORT. The address formula and its inverse under any kind table, and the fields of the two formats read back from the
words the encoder builds. -/

namespace Sys2Proof

/-! ## Kinds and channels -/

theorem Kind.mem_all (k : Kind) : k ∈ Kind.all := by
  rcases k with r | d
  · cases r <;> decide
  · cases d <;> decide

theorem Chan.toNat_lt (ch : Chan) : ch.toNat < 3 := by cases ch <;> decide

theorem Chan.ofNat?_toNat (ch : Chan) : Chan.ofNat? ch.toNat = some ch := by cases ch <;> rfl

theorem Chan.toNat_of_ofNat? {n : Nat} {ch : Chan} (h : Chan.ofNat? n = some ch) : ch.toNat = n := by
  unfold Chan.ofNat? at h
  split at h <;> simp at h <;> subst h <;> rfl

theorem Chan.ofNat?_mod (n : Nat) : ∃ ch, Chan.ofNat? (n % 3) = some ch := by
  have : n % 3 = 0 ∨ n % 3 = 1 ∨ n % 3 = 2 := by omega
  rcases this with h | h | h <;> rw [h] <;> exact ⟨_, rfl⟩

theorem Config.kindNum_lt {c : Config} (h : c.KindsOk) (k : Kind) : c.kindNum k < 11 :=
  h.1 ▸ List.idxOf_lt_length_of_mem (h.2.2 k k.mem_all)

theorem Config.kindOf_kindNum {c : Config} (h : c.KindsOk) (k : Kind) : c.kindOf[c.kindNum k]? = some k :=
  List.getElem?_idxOf (h.2.2 k k.mem_all)

theorem Config.kindNum_of_kindOf {c : Config} (h : c.KindsOk) {n : Nat} {k : Kind} (hk : c.kindOf[n]? = some k) :
    c.kindNum k = n := by
  obtain ⟨hn, rfl⟩ := List.getElem?_eq_some_iff.mp hk
  exact h.2.1.idxOf_getElem n hn

/-! ## Offsets -/

theorem Config.off_lt {c : Config} (h : c.KindsOk) (k : Kind) (ch : Chan) : c.off k ch < 256 := by
  have := c.kindNum_lt h k
  have := ch.toNat_lt
  unfold Config.off
  omega

/-- The register at a register's offset is that register. -/
theorem Config.locate_off {c : Config} (h : c.KindsOk) (k : Kind) (ch : Chan) :
    c.locate (c.off k ch) = some (k, ch) := by
  have h1 := c.kindNum_lt h k
  have h2 := ch.toNat_lt
  have e1 : c.off k ch / 4 / 3 = c.kindNum k := by unfold Config.off; omega
  have e2 : c.off k ch / 4 % 3 = ch.toNat := by unfold Config.off; omega
  unfold Config.locate
  rw [if_pos (by unfold Config.off regionBytes; omega), e1, e2, c.kindOf_kindNum h, Chan.ofNat?_toNat]

/-- A register's offset is the only one it stands at. -/
theorem Config.eq_off_of_locate {c : Config} (h : c.KindsOk) {off : Nat} {k : Kind} {ch : Chan}
    (hl : c.locate off = some (k, ch)) : off = c.off k ch := by
  unfold Config.locate at hl
  split at hl
  · split at hl
    · rename_i hk hc
      cases hl
      have := Config.kindNum_of_kindOf h hk
      have := Chan.toNat_of_ofNat? hc
      unfold Config.off
      omega
    · cases hl
  · cases hl

/-! ## Fields of the transaction word and of the command word -/

theorem twOffset_transactionWord (we : Bool) {off : Nat} (h : off < 256) :
    (twOffset (transactionWord we off)).toNat = off := by
  have : twOffset (transactionWord we off) = BitVec.ofNat 8 off := by
    unfold twOffset transactionWord
    refine BitVec.eq_of_getLsbD_eq fun i hi => ?_
    rw [BitVec.getLsbD_extractLsb', BitVec.getLsbD_append]
    simp [hi]
  rw [this]
  simp
  omega

theorem twWrite_transactionWord (we : Bool) (off : Nat) : twWrite (transactionWord we off) = we := by
  unfold twWrite transactionWord
  rw [BitVec.getLsbD_append]
  cases we <;> simp

/-- A transaction word is its two fields. -/
theorem transactionWord_fields (tw : BitVec 9) : transactionWord (twWrite tw) (twOffset tw).toNat = tw := by
  revert tw
  decide +kernel

theorem commandWord_read (p : Polarity) (op : Command) (ch : Chan) :
    cwZero (commandWord p.bit op ch) = 0 ∧ cwPolarity (commandWord p.bit op ch) = p.bit ∧
    cwOp (commandWord p.bit op ch) = op ∧ cwChan (commandWord p.bit op ch) = some ch := by
  cases p <;> cases op <;> cases ch <;> decide

/-- A command word that is not reserved is its fields. -/
theorem commandWord_fields : ∀ cw : Byte, cwZero cw = 0 → ∀ ch, cwChan cw = some ch →
    commandWord (cwPolarity cw) (cwOp cw) ch = cw := by
  decide +kernel

/-! ## The encoder by register and channel -/

theorem encode_ofRead (c : Config) (k : Kind) (ch : Chan) : encode c (Instr.ofRead k ch) = encodeRead c k ch := by
  rcases k with r | d
  · cases r <;> cases ch <;> rfl
  · cases d <;> cases ch <;> rfl

theorem encode_ofWrite (c : Config) (k : Kind) (ch : Chan) (v : Word) :
    encode c (Instr.ofWrite k ch v) = encodeWrite c k ch v := by
  rcases k with r | d
  · cases r <;> cases ch <;> rfl
  · cases d <;> cases ch <;> rfl

end Sys2Proof
end

