-- ==== Sys2Proof/Laws/Operands.lean ====
section
/-! SUPPORT. The contract of CONFIGURE's operands as plain inequalities, the bit length, and the prescale field of
`CLK_CTRL`. -/

namespace Sys2Proof.Machine

/-! ## The contract -/

theorem dutyOk_iff {d : Word} : dutyOk d = true ↔ 0 ≤ d.toInt := by simp [dutyOk]

theorem rateOk_iff {r : Word} : rateOk r = true ↔ r ≠ 0 := by simp [rateOk]

theorem periodOk_iff {p r : Word} : periodOk p r = true ↔ (0 ≤ p.toInt → ticks p.toNat r.toNat < 2 ^ 32) := by
  simp only [periodOk, Bool.or_eq_true, decide_eq_true_eq]
  constructor
  · rintro (h | h) h0
    · omega
    · exact h
  · intro h
    by_cases h0 : p.toInt < 0
    · exact .inl h0
    · exact .inr (h (by omega))

/-! ## Bit length -/

theorem bitlen_eq_log {p : Nat} (h : 0 < p) : bitlen p = Nat.log 2 p + 1 := by
  simp [bitlen, Nat.pos_iff_ne_zero.mp h, Nat.log2_eq_log_two]

theorem pow_le_of_bitlen {p : Nat} (h : 0 < p) : 2 ^ (bitlen p - 1) ≤ p := by
  rw [bitlen_eq_log h]
  exact Nat.pow_log_le_self 2 h.ne'

theorem lt_pow_bitlen {p : Nat} (h : 0 < p) : p < 2 ^ bitlen p := by
  rw [bitlen_eq_log h]
  exact Nat.lt_pow_succ_log_self (by norm_num) p

/-! ## The prescale field -/

theorem psV_eq_mod (c : Config) (w : Word) : psV c w = (w >>> c.clk.psShift).toNat % 16 := by
  unfold psV
  rw [BitVec.toNat_and]
  exact Nat.and_two_pow_sub_one_eq_mod _ 4

/-- The prescale code depends on its four bits only. -/
theorem psV_congr {c : Config} {v w : Word}
    (h : ∀ i, c.clk.psShift ≤ i → i < c.clk.psShift + 4 → testBit v i = testBit w i) : psV c v = psV c w := by
  unfold psV
  congr 1
  refine BitVec.eq_of_getLsbD_eq fun i _ => ?_
  rw [BitVec.getLsbD_and, BitVec.getLsbD_and, BitVec.getLsbD_ushiftRight, BitVec.getLsbD_ushiftRight]
  by_cases h4 : i < 4
  · have hi := h (c.clk.psShift + i) (by omega) (by omega)
    unfold testBit at hi
    rw [hi]
  · have : (0xF#32).getLsbD i = false := by
      revert h4
      revert i
      decide
    simp [this]

theorem testBit_psVMask (c : Config) (i : Nat) :
    testBit (psVMask c) i = (decide (i < 32) && decide (c.clk.psShift ≤ i ∧ i < c.clk.psShift + 4)) := by
  unfold psVMask testBit
  rw [BitVec.getLsbD_shiftLeft]
  by_cases h : i < 32
  · by_cases h2 : i < c.clk.psShift
    · simp [h, h2]
    · have hb : (0xF#32).getLsbD (i - c.clk.psShift) = decide (i - c.clk.psShift < 4) := by
        have hh : i - c.clk.psShift < 32 := by omega
        generalize i - c.clk.psShift = j at hh ⊢
        revert j
        decide
      rw [hb]
      simp only [h, h2, decide_true, decide_false, Bool.not_false, Bool.true_and, decide_eq_decide]
      omega
  · simp [h]

/-- A shifted code has no bit outside its field. -/
theorem testBit_code_outside (c : Config) {n i : Nat} (h : n < 16)
    (hi : i < c.clk.psShift ∨ c.clk.psShift + 4 ≤ i) : testBit (BitVec.ofNat 32 n <<< c.clk.psShift) i = false := by
  unfold testBit
  rw [BitVec.getLsbD_shiftLeft]
  by_cases h2 : i < c.clk.psShift
  · simp [h2]
  · have h3 : n < 2 ^ (i - c.clk.psShift) :=
      calc n < 2 ^ 4 := h
        _ ≤ _ := Nat.pow_le_pow_right (by norm_num) (by omega)
    simp [BitVec.getLsbD_ofNat, Nat.testBit_lt_two_pow h3]

theorem clk_lt {c : Config} (h : c.ClkOk) : c.clk.psEn < 32 ∧ c.clk.cSrc < 32 ∧ c.clk.psShift + 4 ≤ 32 := by
  refine ⟨lt_of_testBit h.2.2.2.1, lt_of_testBit h.2.2.2.2.1, ?_⟩
  have := lt_of_testBit (h.2.2.2.2.2 3 (by omega))
  omega

/-- A code stored in the field reads back. -/
theorem psV_code {c : Config} {n : Nat} (h : n < 16) (hc : c.clk.psShift + 4 ≤ 32) :
    psV c (BitVec.ofNat 32 n <<< c.clk.psShift) = n := by
  rw [psV_eq_mod]
  have hl : n * 2 ^ c.clk.psShift < 2 ^ 32 :=
    calc n * 2 ^ c.clk.psShift < 2 ^ 4 * 2 ^ c.clk.psShift := Nat.mul_lt_mul_of_pos_right h (by positivity)
      _ = 2 ^ (4 + c.clk.psShift) := by rw [pow_add]
      _ ≤ _ := Nat.pow_le_pow_right (by norm_num) (by omega)
  rw [BitVec.toNat_ushiftRight, BitVec.toNat_shiftLeft, Nat.shiftLeft_eq, BitVec.toNat_ofNat,
    Nat.mod_eq_of_lt (show n < 2 ^ 32 by omega), Nat.mod_eq_of_lt hl, Nat.shiftRight_eq_div_pow,
    Nat.mul_div_cancel _ (by positivity)]
  omega

/-- The divisor is a power of two of at most 2^16. -/
theorem divisor_bounds (c : Config) (w : Word) : 1 ≤ divisor c w ∧ divisor c w ≤ 65536 := by
  have hv : psV c w ≤ 15 := by
    rw [psV_eq_mod]
    omega
  unfold divisor
  split
  · exact ⟨Nat.one_le_two_pow, le_trans (Nat.pow_le_pow_right (by norm_num) (by omega : psV c w + 1 ≤ 16)) (by norm_num)⟩
  · omega

end Sys2Proof.Machine
end

