-- ==== Sys2Proof/Laws/MicroStep.lean ====
section
/-! SUPPORT. A micro-step said once, channel by channel: the channel after it, the events it appends and the answer it uses
up are functions of the parameters, the environment's answer and the channel alone, and nothing else of the state
changes. -/

namespace Sys2Proof.Machine

/-- A sequencer after a completion with a status. -/
def Seq.finish (q : Seq) (st : Status) : Seq := { q with status := st, pc := .idle }

/-- The channel after its sequencer's next micro-step, given the parameters and whether the clock refuses to start. -/
def Channel.micro (c : Channel) (cfg : Config) (ext fail : Bool) : Channel :=
  let q := c.seq
  match q.pc with
  | .idle => c
  | .cCheck =>
    if q.periodNs.toInt < 0 then { c with seq := q.finish .invalidArgument } else { c with seq := { q with pc := .cClk } }
  | .cClk =>
    if fail then { c with seq := q.finish .clockUnavailable }
    else { c with clkOn := true, seq := { q with pc := .cRdCnt } }
  | .cRdCnt => { c with seq := { q with x0 := c.cntCtrl, pc := .cWrQuiesce } }
  | .cWrQuiesce =>
    { c with cntCtrl := quiesceVal cfg q.x0 &&& cfg.cntImplMask, seq := { q with pc := .cCalcP } }
  | .cCalcP =>
    { c with seq := { q with
        pclk := BitVec.ofNat 64 (ticks q.periodNs.toNat q.rateHz.toNat)
        e := BitVec.ofNat 5 (exponent (ticks q.periodNs.toNat q.rateHz.toNat))
        pc := .cRdClk } }
  | .cRdClk => { c with seq := { q with y := c.clkCtrl, pc := .cWrClk } }
  | .cWrClk =>
    { c with clkCtrl := clkval cfg q.y q.e.toNat ext &&& cfg.clkImplMask, seq := { q with pc := .cCalcD } }
  | .cCalcD =>
    { c with seq := { q with
        dclk := BitVec.ofNat 64 (ticks q.dutyNs.toNat q.rateHz.toNat)
        icnt := threshold q.pclk.toNat q.e.toNat
        mcnt := threshold (ticks q.dutyNs.toNat q.rateHz.toNat) q.e.toNat
        pc := .cWrInt } }
  | .cWrInt => { c with interval := q.icnt, seq := { q with pc := .cWrM1 } }
  | .cWrM1 => { c with match1 := q.mcnt, seq := { q with pc := .cWrRestore } }
  | .cWrRestore =>
    { c with
      cntCtrl := cntval cfg q.x0 c.pol &&& cfg.cntImplMask
      last := some { e := q.e, intervalCount := q.icnt, matchCount := q.mcnt }
      phase := configuredPhase c.phase
      seq := q.finish .ok }
  | .eClk =>
    if fail then { c with seq := q.finish .clockUnavailable }
    else { c with clkOn := true, seq := { q with pc := .eRd } }
  | .eRd => { c with seq := { q with x := c.cntCtrl, pc := .eWr } }
  | .eWr => { c with cntCtrl := enableVal cfg q.x &&& cfg.cntImplMask, phase := .enabled, seq := q.finish .ok }
  | .dRd => { c with seq := { q with x := c.cntCtrl, pc := .dWr } }
  | .dWr => { c with cntCtrl := disableVal cfg q.x &&& cfg.cntImplMask, seq := { q with pc := .dClkoff } }
  | .dClkoff => { c with clkOn := false, phase := .disabled, seq := q.finish .ok }
  | .pSet => { c with pol := q.polArg, seq := q.finish .ok }

/-- The events of the next micro-step. -/
def Channel.microEvents (c : Channel) (cfg : Config) (ext fail : Bool) (ch : Chan) : List Event :=
  let q := c.seq
  match q.pc with
  | .idle | .cCalcP | .cCalcD => []
  | .cCheck => if q.periodNs.toInt < 0 then [.done ch q.op .invalidArgument] else []
  | .cClk | .eClk => if fail then [.done ch q.op .clockUnavailable] else []
  | .cRdCnt | .eRd | .dRd => [.acc .R c.cntCtrl ch .cntCtrl]
  | .cWrQuiesce => [.acc .W (quiesceVal cfg q.x0) ch .cntCtrl]
  | .cRdClk => [.acc .R c.clkCtrl ch .clkCtrl]
  | .cWrClk => [.acc .W (clkval cfg q.y q.e.toNat ext) ch .clkCtrl]
  | .cWrInt => [.acc .W (q.icnt.setWidth 32) ch .interval]
  | .cWrM1 => [.acc .W (q.mcnt.setWidth 32) ch .match1]
  | .cWrRestore => [.acc .W (cntval cfg q.x0 c.pol) ch .cntCtrl, .done ch q.op .ok]
  | .eWr => [.acc .W (enableVal cfg q.x) ch .cntCtrl, .done ch q.op .ok]
  | .dWr => [.acc .W (disableVal cfg q.x) ch .cntCtrl]
  | .dClkoff | .pSet => [.done ch q.op .ok]

/-- The environment's pending answer after the next micro-step: a handshake uses it up. -/
def Channel.microFail (c : Channel) (fail : Bool) : Bool :=
  match c.seq.pc with
  | .cClk | .eClk => false
  | _ => fail

/-- A micro-step is its channel's, and nothing else of the state changes. -/
theorem microStep_eq (ch : Chan) (s : State) :
    microStep ch s = { s with
      chans := s.chans.set ch ((s.chan ch).micro s.cfg (s.cfg.extClk.get ch) (s.clkFail.get ch))
      trace := s.trace ++ (s.chan ch).microEvents s.cfg (s.cfg.extClk.get ch) (s.clkFail.get ch) ch
      clkFail := s.clkFail.set ch ((s.chan ch).microFail (s.clkFail.get ch)) } := by
  unfold microStep Channel.micro Channel.microEvents Channel.microFail
  have hq : s.seq ch = (s.chan ch).seq := rfl
  cases h : (s.seq ch).pc <;> rw [hq] at h <;> simp only [h]
  case idle => simp [State.chan]
  case cCheck =>
    unfold cCheck
    split <;> rename_i hp <;> rw [hq] at hp
    · simp [hp, raiseError, complete, State.record, State.setSeq, State.setChan, Seq.finish, State.seq]
    · simp [hp, State.goto, State.setSeq, State.setChan, State.seq]
  case cClk =>
    cases hf : s.clkFail.get ch <;>
      simp [hf, cClk, clkEnable, raiseError, complete, State.record, State.goto, State.setSeq, State.setChan,
        Seq.finish, State.seq, State.chan]
  case eClk =>
    cases hf : s.clkFail.get ch <;>
      simp [hf, eClk, clkEnable, raiseError, complete, State.record, State.goto, State.setSeq, State.setChan,
        Seq.finish, State.seq, State.chan]
  all_goals
    simp [cRdCnt, cWrQuiesce, cCalcP, cRdClk, cWrClk, cCalcD, cWrInt, cWrM1, cWrRestore, eRd, eWr, dRd, dWr,
      dClkoff, pSet, busRead, busWrite, complete, State.record, State.goto, State.setSeq, State.setChan, Seq.finish,
      State.seq, State.chan, Channel.readReg, Channel.writeReg]

@[simp] theorem microStep_cfg (ch : Chan) (s : State) : (microStep ch s).cfg = s.cfg := by rw [microStep_eq]
@[simp] theorem microStep_script (ch : Chan) (s : State) : (microStep ch s).script = s.script := by rw [microStep_eq]
@[simp] theorem microStep_faulted (ch : Chan) (s : State) : (microStep ch s).faulted = s.faulted := by rw [microStep_eq]
@[simp] theorem microStep_refused (ch : Chan) (s : State) : (microStep ch s).refused = s.refused := by rw [microStep_eq]

/-- The channel of a micro-step. -/
theorem microStep_chan_self (ch : Chan) (s : State) :
    (microStep ch s).chan ch = (s.chan ch).micro s.cfg (s.cfg.extClk.get ch) (s.clkFail.get ch) := by
  rw [microStep_eq]
  simp [State.chan]

/-- Every other channel is as it was. -/
theorem microStep_chan_ne {ch ch' : Chan} (h : ch' ≠ ch) (s : State) : (microStep ch s).chan ch' = s.chan ch' := by
  rw [microStep_eq]
  simp [State.chan, PerChan.get_set_ne _ h]

/-- A micro-step appends at most two events. -/
theorem microEvents_length (c : Channel) (cfg : Config) (ext fail : Bool) (ch : Chan) :
    (c.microEvents cfg ext fail ch).length ≤ 2 := by
  unfold Channel.microEvents
  dsimp only
  split <;> (try split) <;> simp

/-- With nothing of the script consumed, a sequencer that is idle stays idle. -/
theorem microStep_idle {ch : Chan} {s : State} (h : s.busy ch = false) : microStep ch s = s := by
  have hpc := State.busy_eq_false.mp h
  simp [microStep, hpc]

end Sys2Proof.Machine
end

