-- ==== Sys2Proof/Laws/StepCases.lean ====
section
/-! SUPPORT. The inversion of a step: if a step answers a next state, one of a few moves was made. Every invariant is proved
from this, without unfolding `step` again. -/

namespace Sys2Proof.Machine

/-- The moves a step can make, with the next state of each. -/
inductive StepCase (s t : State) : Prop where
  /-- A host's move waits for its channel, or the script is consumed: a busy sequencer takes its micro-step. -/
  | waits (ch : Chan) (hb : s.busy ch = true) (h : t = microStep ch s)
  /-- The script is consumed and every sequencer is idle. -/
  | stays (h : t = s)
  /-- The script schedules a micro-step. -/
  | scheduled (ch : Chan) (h : t = (microStep ch s).consume)
  /-- An `await` item that has been met, or a clock edge of a channel whose clock is stopped. -/
  | skips (h : t = s.consume)
  /-- The environment's next answer is set. -/
  | answers (ch : Chan) (h : t = { s with clkFail := s.clkFail.set ch true }.consume)
  /-- A raw read. -/
  | reads (r : Reg) (ch : Chan) (hb : s.busy ch = false) (h : t = (busRead r ch s).2.consume)
  /-- A raw write. -/
  | writes (r : Reg) (ch : Chan) (v : Word) (hf : fetch s = some (.instr (Instr.ofWrite (.reg r) ch v)))
      (hb : s.busy ch = false) (h : t = (busWrite r ch v s).consume)
  /-- A command without operand ports is accepted. -/
  | accepts (ch : Chan) (op : Command) (p : Polarity) (ho : op ≠ .configure) (hb : s.busy ch = false)
      (h : t = (s.setSeq ch (latch (s.seq ch) op p)).consume)
  /-- A CONFIGURE inside the contract is accepted. -/
  | acceptsConfigure (ch : Chan) (d p r : Word) (hb : s.busy ch = false)
      (hc : dutyOk d = true ∧ rateOk r = true ∧ periodOk p r = true)
      (h : t = (s.setSeq ch { latch (s.seq ch) .configure .normal with
        dutyNs := d, periodNs := p, rateHz := r }).consume)
  /-- TEARDOWN is expanded. -/
  | expands (h : t = { s with script := teardownScript s.cfg ++ s.script.tail })
  /-- A clock edge reaches the timer channel. -/
  | ticks (ch : Chan) (c : Channel) (hf : fetch s = some (.instr (.edge ch))) (hon : (s.chan ch).clkOn = true)
      (hc : (s.chan ch).clockEdge s.cfg = some c) (h : t = ((s.setChan ch c).record (.edge ch)).consume)

theorem outcome_next_inj {s t : State} (h : (Host.Outcome.next s : Host.Outcome State Fault Refusal) = .next t) :
    s = t := by
  cases h
  rfl

/-- What a command without operand ports can do. -/
theorem accept_cases {s t : State} {ch : Chan} {op : Command} {p : Polarity} (ho : op ≠ .configure)
    (h : accept ch op p s = t) : StepCase s t := by
  unfold accept at h
  split at h
  · exact .waits ch ‹_› h.symm
  · exact .accepts ch op p ho (eq_false_of_ne_true ‹_›) h.symm

/-- What an instruction can do, when it is the one at the ports. -/
theorem exec_cases {s t : State} {i : Instr} (hf : fetch s = some (.instr i)) (h : exec i s = .next t) :
    StepCase s t := by
  rcases Instr_cases i with ⟨k, ch, rfl⟩ | ⟨k, ch, v, rfl⟩ | ⟨ch, d, p, r, rfl⟩ | ⟨ch, rfl⟩ | ⟨ch, rfl⟩ |
    ⟨ch, p, rfl⟩ | rfl | ⟨ch, rfl⟩
  · cases k with
    | reg r =>
      rw [exec_ofRead, rawRead] at h
      split at h
      · exact .waits ch ‹_› (outcome_next_inj h).symm
      · exact .reads r ch (eq_false_of_ne_true ‹_›) (outcome_next_inj h).symm
    | dead d => rw [exec_ofRead_dead] at h; cases h
  · cases k with
    | reg r =>
      rw [exec_ofWrite, rawWrite] at h
      split at h
      · exact .waits ch ‹_› (outcome_next_inj h).symm
      · exact .writes r ch v hf (eq_false_of_ne_true ‹_›) (outcome_next_inj h).symm
    | dead d => rw [exec_ofWrite_dead] at h; cases h
  · simp only [exec, execConfigure] at h
    split at h
    · exact .waits ch ‹_› (outcome_next_inj h).symm
    · split at h
      · cases h
      · split at h
        · cases h
        · split at h
          · cases h
          · exact .acceptsConfigure ch d p r (by simpa using ‹¬s.busy ch = true›)
              (by simp_all) (outcome_next_inj h).symm
  · exact accept_cases (by decide) (outcome_next_inj h)
  · exact accept_cases (by decide) (outcome_next_inj h)
  · exact accept_cases (by decide) (outcome_next_inj h)
  · exact .expands (outcome_next_inj h).symm
  · simp only [exec, execEdge] at h
    split at h
    · split at h
      · exact .ticks ch _ hf ‹_› ‹_› (outcome_next_inj h).symm
      · cases h
    · exact .skips (outcome_next_inj h).symm

/-- A step that answers a next state starts with both flags clear and makes one of the moves. -/
theorem step_cases {s t : State} (h : step s = .next t) : s.Unstopped ∧ StepCase s t := by
  unfold step at h
  split at h
  · cases h
  · split at h
    · cases h
    · refine ⟨⟨by simpa using ‹¬s.faulted = true›, by simpa using ‹¬s.refused = true›⟩, ?_⟩
      split at h
      · replace h := outcome_next_inj h
        unfold drain at h
        split at h
        · exact .waits .c0 ‹_› h.symm
        · split at h
          · exact .waits .c1 ‹_› h.symm
          · split at h
            · exact .waits .c2 ‹_› h.symm
            · exact .stays h.symm
      · exact exec_cases ‹_› h
      · replace h := outcome_next_inj h
        rename_i q hq
        cases q with
        | clkFail ch => exact .answers ch h.symm
        | micro ch => exact .scheduled ch h.symm
        | await ch =>
          simp only [runCue] at h
          split at h
          · exact .waits ch ‹_› h.symm
          · exact .skips h.symm
      · cases h
      · cases h

/-! ## What no move changes -/

/-- No move changes the parameters or the flags. -/
theorem StepCase.fixed {s t : State} (h : StepCase s t) :
    t.cfg = s.cfg ∧ t.faulted = s.faulted ∧ t.refused = s.refused := by
  cases h <;> subst_vars <;> simp [busRead, busWrite]

/-- A move appends at most two events to the trace. -/
theorem StepCase.trace {s t : State} (h : StepCase s t) : ∃ es, t.trace = s.trace ++ es ∧ es.length ≤ 2 := by
  cases h with
  | waits ch hb h => exact ⟨_, by rw [h, microStep_eq], microEvents_length ..⟩
  | scheduled ch h => exact ⟨_, by rw [h, State.consume_trace, microStep_eq], microEvents_length ..⟩
  | reads r ch hb h => exact ⟨[.acc .R ((s.chan ch).readReg r) ch r], by rw [h]; rfl, by simp⟩
  | writes r ch v hf hb h => exact ⟨[.acc .W v ch r], by rw [h]; rfl, by simp⟩
  | ticks ch c hf hon hc h => exact ⟨[.edge ch], by rw [h]; rfl, by simp⟩
  | stays h | skips h | answers ch h | accepts ch op p ho hb h | acceptsConfigure ch d p r hb hc h | expands h =>
    exact ⟨[], by rw [h]; simp, by simp⟩

/-- What a move does to one channel: nothing, a micro-step of its own sequencer, a raw write, an acceptance, or a clock
edge. -/
inductive ChanCase (s t : State) (ch : Chan) : Prop where
  | same (h : t.chan ch = s.chan ch)
  | micro (h : t.chan ch = (s.chan ch).micro s.cfg (s.cfg.extClk.get ch) (s.clkFail.get ch))
  | write (r : Reg) (v : Word) (hf : fetch s = some (.instr (Instr.ofWrite (.reg r) ch v)))
      (hb : (s.chan ch).seq.pc = .idle) (h : t.chan ch = (s.chan ch).writeReg s.cfg r v)
  | accept (op : Command) (p : Polarity) (ho : op ≠ .configure) (hb : (s.chan ch).seq.pc = .idle)
      (h : t.chan ch = { s.chan ch with seq := latch (s.chan ch).seq op p })
  | acceptConfigure (d p r : Word) (hb : (s.chan ch).seq.pc = .idle)
      (hc : dutyOk d = true ∧ rateOk r = true ∧ periodOk p r = true)
      (h : t.chan ch = { s.chan ch with seq := { latch (s.chan ch).seq .configure .normal with
        dutyNs := d, periodNs := p, rateHz := r } })
  | edge (c : Channel) (hf : fetch s = some (.instr (.edge ch))) (hon : (s.chan ch).clkOn = true)
      (hc : (s.chan ch).clockEdge s.cfg = some c) (h : t.chan ch = c)

/-- A move, seen from one channel. -/
theorem StepCase.chan {s t : State} (hs : StepCase s t) (ch : Chan) : ChanCase s t ch := by
  cases hs with
  | waits ch' hb h =>
    subst h
    by_cases hc : ch = ch'
    · subst hc; exact .micro (microStep_chan_self ch s)
    · exact .same (microStep_chan_ne hc s)
  | scheduled ch' h =>
    subst h
    by_cases hc : ch = ch'
    · subst hc; exact .micro (microStep_chan_self ch s)
    · exact .same (microStep_chan_ne hc s)
  | stays h | skips h | answers _ h | expands h | reads _ _ _ h => exact .same (by subst h; rfl)
  | writes r ch' v hf hb h =>
    subst h
    by_cases hc : ch = ch'
    · subst hc
      exact .write r v hf (State.busy_eq_false.mp hb) (by simp [busWrite])
    · exact .same (by simp [busWrite, State.chan_setChan_ne _ hc])
  | accepts ch' op p ho hb h =>
    subst h
    by_cases hc : ch = ch'
    · subst hc
      exact .accept op p ho (State.busy_eq_false.mp hb) (by simp [State.seq])
    · exact .same (by simp [State.chan_setSeq_ne _ hc])
  | acceptsConfigure ch' d p r hb hok h =>
    subst h
    by_cases hc : ch = ch'
    · subst hc
      exact .acceptConfigure d p r (State.busy_eq_false.mp hb) hok (by simp [State.seq])
    · exact .same (by simp [State.chan_setSeq_ne _ hc])
  | ticks ch' c hf hon hc h =>
    subst h
    by_cases hch : ch = ch'
    · subst hch
      exact .edge c hf hon hc (by simp)
    · exact .same (by simp [State.chan_setChan_ne _ hch])

/-- A clock edge, seen from the channel: a reset service, nothing, or a counting edge. -/
theorem Channel.clockEdge_cases {c c' : Channel} {cfg : Config} (h : c.clockEdge cfg = some c') :
    (rst cfg c.cntCtrl = true ∧ c' = c.resetService cfg) ∨
    (rst cfg c.cntCtrl = false ∧ dis cfg c.cntCtrl = true ∧ c' = c) ∨
    (rst cfg c.cntCtrl = false ∧ dis cfg c.cntCtrl = false ∧ admittedMode cfg c.cntCtrl = true ∧
      c' = c.countEdge cfg) := by
  unfold Channel.clockEdge at h
  split at h
  · exact .inl ⟨‹_›, (Option.some.inj h).symm⟩
  · split at h
    · exact .inr (.inl ⟨by simpa using ‹¬rst cfg c.cntCtrl = true›, ‹_›, (Option.some.inj h).symm⟩)
    · split at h
      · exact .inr (.inr ⟨by simpa using ‹¬rst cfg c.cntCtrl = true›, by simpa using ‹¬dis cfg c.cntCtrl = true›, ‹_›,
          (Option.some.inj h).symm⟩)
      · cases h

/-- A counting edge touches the counter, the prescaler phase and the waveform phase only. -/
theorem Channel.countEdge_frame (c : Channel) (cfg : Config) :
    ∃ k p a, c.countEdge cfg = { c with counter := k, psCnt := p, active := a } := by
  unfold Channel.countEdge
  split
  split
  · exact ⟨_, _, _, rfl⟩
  · exact ⟨_, _, _, rfl⟩

end Sys2Proof.Machine
end

