-- ==== Sys2Proof/Laws/Invariant.lean ====
section
/-! SUPPORT. Small lemmas of the invariants: an idle channel, fields that agree when two register values agree up to the reset
request, the frame of a register write and of a clock edge. -/

namespace Sys2Proof.Machine

/-! ## Idle channels -/

/-- On an idle channel the invariant is its three facts about stored values. -/
theorem ChannelInv.ofIdle {cfg : Config} {ext : Bool} {c : Channel} (h1 : c.clkCtrl &&& ~~~cfg.clkImplMask = 0)
    (h2 : c.cntCtrl &&& ~~~cfg.cntImplMask = 0) (h3 : ∀ a, c.last = some a → a.e.toNat ≤ 16) (hb : c.seq.pc = .idle) :
    ChannelInv cfg ext c := by
  have hc : c.seq.pc.command = none := by rw [hb]; rfl
  have hno : ∀ n, c.seq.ConfigureFrom n → False := fun n h => by simp [Seq.ConfigureFrom, hc] at h
  refine ⟨h1, h2, h3, ?_, ?_, ?_, ?_, ?_, ?_, ?_, ?_, ?_, ?_, ?_, ?_, ?_, ?_, ?_⟩
  · intro op h
    rw [hc] at h
    cases h
  · exact fun h => (hno _ h).elim
  · exact fun h => (hno _ h).elim
  · rintro (h | h | h)
    · exact (hno _ h).elim
    · rw [hb] at h
      cases h
    · rw [hb] at h
      cases h
  all_goals first
    | exact fun h => (hno _ h).elim
    | (intro h; rw [hb] at h; simp at h)

/-! ## Register writes and clock edges -/

/-- A register write leaves everything but the register as it was. -/
theorem Channel.writeReg_frame (c : Channel) (cfg : Config) (r : Reg) (v : Word) :
    (c.writeReg cfg r v).counter = c.counter ∧ (c.writeReg cfg r v).psCnt = c.psCnt ∧
    (c.writeReg cfg r v).active = c.active ∧ (c.writeReg cfg r v).clkOn = c.clkOn ∧
    (c.writeReg cfg r v).pol = c.pol ∧ (c.writeReg cfg r v).last = c.last ∧
    (c.writeReg cfg r v).phase = c.phase ∧ (∀ r', r' ≠ r → (c.writeReg cfg r v).readReg r' = c.readReg r') := by
  refine ⟨?_, ?_, ?_, ?_, ?_, ?_, ?_, ?_⟩
  all_goals try (cases r <;> rfl)
  intro r' h
  cases r <;> cases r' <;> first | rfl | exact absurd rfl h

/-- A clock edge touches the counter, the prescaler phase, the waveform phase and the reset request only. -/
theorem Channel.clockEdge_frame {c c' : Channel} {cfg : Config} (h : c.clockEdge cfg = some c') :
    ∃ k p a w, c' = { c with counter := k, psCnt := p, active := a, cntCtrl := w } ∧
      (w = c.cntCtrl ∨ w = clearBit c.cntCtrl cfg.cnt.rst) := by
  rcases Channel.clockEdge_cases h with ⟨-, rfl⟩ | ⟨-, -, rfl⟩ | ⟨-, -, -, rfl⟩
  · exact ⟨_, _, _, _, rfl, .inr rfl⟩
  · exact ⟨_, _, _, _, rfl, .inl rfl⟩
  · obtain ⟨k, p, a, h⟩ := c.countEdge_frame cfg
    exact ⟨k, p, a, _, h, .inl rfl⟩

/-- After a clock edge the control register is the same up to the reset request. -/
theorem sameButRst_of_edge {cfg : Config} {v w : Word} (h : w = v ∨ w = clearBit v cfg.cnt.rst) :
    SameButRst cfg w v := by
  rcases h with rfl | rfl
  · rfl
  · exact clearBit_clearBit _ _

/-! ## Fields up to the reset request, and through the mask -/

/-- Register values that agree up to the reset request agree in the six other fields. -/
theorem fields_of_sameButRst {cfg : Config} (h : cfg.CntOk) {v w : Word} (hs : SameButRst cfg v w) :
    dis cfg v = dis cfg w ∧ waveDis cfg v = waveDis cfg w ∧ wavePol cfg v = wavePol cfg w ∧
    int cfg v = int cfg w ∧ dec cfg v = dec cfg w ∧ matchEn cfg v = matchEn cfg w := by
  obtain ⟨⟨-, -, -, h1, -, -⟩, ⟨-, -, h2, -, -⟩, ⟨-, h3, -, -⟩, ⟨h4, -, -⟩, ⟨h5, h6⟩, -⟩ := cnt_facts h
  have hb := (clearBit_eq_iff _ _ _).mp hs
  exact ⟨hb _ h1, hb _ h5.symm, hb _ h6.symm, hb _ h2, hb _ h3, hb _ h4⟩

/-- The six fields are not touched by the mask of implemented bits. -/
theorem fields_and_mask {cfg : Config} (h : cfg.CntOk) (v : Word) :
    dis cfg (v &&& cfg.cntImplMask) = dis cfg v ∧ waveDis cfg (v &&& cfg.cntImplMask) = waveDis cfg v ∧
    wavePol cfg (v &&& cfg.cntImplMask) = wavePol cfg v ∧ int cfg (v &&& cfg.cntImplMask) = int cfg v ∧
    dec cfg (v &&& cfg.cntImplMask) = dec cfg v ∧ matchEn cfg (v &&& cfg.cntImplMask) = matchEn cfg v := by
  refine ⟨?_, ?_, ?_, ?_, ?_, ?_⟩ <;> exact field_and_mask h (by simp [CntLayout.bits]) _

end Sys2Proof.Machine
end

