-- ==== Sys2Proof/Laws/PerInstr.lean ====
section
/-! SUPPORT. Per instruction: the encoder's word is the word of the instruction's row of spec/opcode_table.json (fields
`match` and `mask`), in the default kind table the rows use (30_encoding R74). -/

namespace Sys2Proof.Laws.TableRow

/-- The row's `match` and `mask`, as the table gives them; TEARDOWN and EDGE have no encoding. -/
def row : Instr → Option (Nat × Nat)
  | .rdClkCtrlCh0 => some (0x000, 0x1FF)
  | .rdClkCtrlCh1 => some (0x004, 0x1FF)
  | .rdClkCtrlCh2 => some (0x008, 0x1FF)
  | .rdCntCtrlCh0 => some (0x00C, 0x1FF)
  | .rdCntCtrlCh1 => some (0x010, 0x1FF)
  | .rdCntCtrlCh2 => some (0x014, 0x1FF)
  | .rdCounterValueCh0 => some (0x018, 0x1FF)
  | .rdCounterValueCh1 => some (0x01C, 0x1FF)
  | .rdCounterValueCh2 => some (0x020, 0x1FF)
  | .rdIntervalCh0 => some (0x024, 0x1FF)
  | .rdIntervalCh1 => some (0x028, 0x1FF)
  | .rdIntervalCh2 => some (0x02C, 0x1FF)
  | .rdMatch1Ch0 => some (0x030, 0x1FF)
  | .rdMatch1Ch1 => some (0x034, 0x1FF)
  | .rdMatch1Ch2 => some (0x038, 0x1FF)
  | .rdMatch2Ch0 => some (0x03C, 0x1FF)
  | .rdMatch2Ch1 => some (0x040, 0x1FF)
  | .rdMatch2Ch2 => some (0x044, 0x1FF)
  | .rdMatch3Ch0 => some (0x048, 0x1FF)
  | .rdMatch3Ch1 => some (0x04C, 0x1FF)
  | .rdMatch3Ch2 => some (0x050, 0x1FF)
  | .rdIrqStatusCh0 => some (0x054, 0x1FF)
  | .rdIrqStatusCh1 => some (0x058, 0x1FF)
  | .rdIrqStatusCh2 => some (0x05C, 0x1FF)
  | .rdIrqEnableCh0 => some (0x060, 0x1FF)
  | .rdIrqEnableCh1 => some (0x064, 0x1FF)
  | .rdIrqEnableCh2 => some (0x068, 0x1FF)
  | .rdEventCtrlCh0 => some (0x06C, 0x1FF)
  | .rdEventCtrlCh1 => some (0x070, 0x1FF)
  | .rdEventCtrlCh2 => some (0x074, 0x1FF)
  | .rdEventRegCh0 => some (0x078, 0x1FF)
  | .rdEventRegCh1 => some (0x07C, 0x1FF)
  | .rdEventRegCh2 => some (0x080, 0x1FF)
  | .wrClkCtrlCh0 _ => some (0x100, 0x1FF)
  | .wrClkCtrlCh1 _ => some (0x104, 0x1FF)
  | .wrClkCtrlCh2 _ => some (0x108, 0x1FF)
  | .wrCntCtrlCh0 _ => some (0x10C, 0x1FF)
  | .wrCntCtrlCh1 _ => some (0x110, 0x1FF)
  | .wrCntCtrlCh2 _ => some (0x114, 0x1FF)
  | .wrCounterValueCh0 _ => some (0x118, 0x1FF)
  | .wrCounterValueCh1 _ => some (0x11C, 0x1FF)
  | .wrCounterValueCh2 _ => some (0x120, 0x1FF)
  | .wrIntervalCh0 _ => some (0x124, 0x1FF)
  | .wrIntervalCh1 _ => some (0x128, 0x1FF)
  | .wrIntervalCh2 _ => some (0x12C, 0x1FF)
  | .wrMatch1Ch0 _ => some (0x130, 0x1FF)
  | .wrMatch1Ch1 _ => some (0x134, 0x1FF)
  | .wrMatch1Ch2 _ => some (0x138, 0x1FF)
  | .wrMatch2Ch0 _ => some (0x13C, 0x1FF)
  | .wrMatch2Ch1 _ => some (0x140, 0x1FF)
  | .wrMatch2Ch2 _ => some (0x144, 0x1FF)
  | .wrMatch3Ch0 _ => some (0x148, 0x1FF)
  | .wrMatch3Ch1 _ => some (0x14C, 0x1FF)
  | .wrMatch3Ch2 _ => some (0x150, 0x1FF)
  | .wrIrqStatusCh0 _ => some (0x154, 0x1FF)
  | .wrIrqStatusCh1 _ => some (0x158, 0x1FF)
  | .wrIrqStatusCh2 _ => some (0x15C, 0x1FF)
  | .wrIrqEnableCh0 _ => some (0x160, 0x1FF)
  | .wrIrqEnableCh1 _ => some (0x164, 0x1FF)
  | .wrIrqEnableCh2 _ => some (0x168, 0x1FF)
  | .wrEventCtrlCh0 _ => some (0x16C, 0x1FF)
  | .wrEventCtrlCh1 _ => some (0x170, 0x1FF)
  | .wrEventCtrlCh2 _ => some (0x174, 0x1FF)
  | .wrEventRegCh0 _ => some (0x178, 0x1FF)
  | .wrEventRegCh1 _ => some (0x17C, 0x1FF)
  | .wrEventRegCh2 _ => some (0x180, 0x1FF)
  | .configure _ _ _ _ => some (0x00, 0xFC)
  | .enable _ => some (0x04, 0xFC)
  | .disable _ => some (0x08, 0xFC)
  | .setPolarity _ _ => some (0x0C, 0xEC)
  | .teardown => none
  | .edge _ => none

/-- The item the encoder gives has the row's bits: a word access with the row's transaction word, or a command word with
the row's fixed bits; an instruction without encoding is its own item. -/
def Statement (i : Instr) : Prop :=
  match row i, encode Config.default i with
  | some (m, k), .bus width tw _ => width = .word ∧ tw.toNat &&& k = m
  | some (m, k), .command cw _ _ _ => cw.toNat &&& k = m
  | none, .teardown => i = .teardown
  | none, .edge ch => i = .edge ch
  | _, _ => False

theorem rdClkCtrlCh0 : Statement .rdClkCtrlCh0 := ⟨rfl, rfl⟩
theorem rdClkCtrlCh1 : Statement .rdClkCtrlCh1 := ⟨rfl, rfl⟩
theorem rdClkCtrlCh2 : Statement .rdClkCtrlCh2 := ⟨rfl, rfl⟩
theorem rdCntCtrlCh0 : Statement .rdCntCtrlCh0 := ⟨rfl, rfl⟩
theorem rdCntCtrlCh1 : Statement .rdCntCtrlCh1 := ⟨rfl, rfl⟩
theorem rdCntCtrlCh2 : Statement .rdCntCtrlCh2 := ⟨rfl, rfl⟩
theorem rdCounterValueCh0 : Statement .rdCounterValueCh0 := ⟨rfl, rfl⟩
theorem rdCounterValueCh1 : Statement .rdCounterValueCh1 := ⟨rfl, rfl⟩
theorem rdCounterValueCh2 : Statement .rdCounterValueCh2 := ⟨rfl, rfl⟩
theorem rdIntervalCh0 : Statement .rdIntervalCh0 := ⟨rfl, rfl⟩
theorem rdIntervalCh1 : Statement .rdIntervalCh1 := ⟨rfl, rfl⟩
theorem rdIntervalCh2 : Statement .rdIntervalCh2 := ⟨rfl, rfl⟩
theorem rdMatch1Ch0 : Statement .rdMatch1Ch0 := ⟨rfl, rfl⟩
theorem rdMatch1Ch1 : Statement .rdMatch1Ch1 := ⟨rfl, rfl⟩
theorem rdMatch1Ch2 : Statement .rdMatch1Ch2 := ⟨rfl, rfl⟩
theorem rdMatch2Ch0 : Statement .rdMatch2Ch0 := ⟨rfl, rfl⟩
theorem rdMatch2Ch1 : Statement .rdMatch2Ch1 := ⟨rfl, rfl⟩
theorem rdMatch2Ch2 : Statement .rdMatch2Ch2 := ⟨rfl, rfl⟩
theorem rdMatch3Ch0 : Statement .rdMatch3Ch0 := ⟨rfl, rfl⟩
theorem rdMatch3Ch1 : Statement .rdMatch3Ch1 := ⟨rfl, rfl⟩
theorem rdMatch3Ch2 : Statement .rdMatch3Ch2 := ⟨rfl, rfl⟩
theorem rdIrqStatusCh0 : Statement .rdIrqStatusCh0 := ⟨rfl, rfl⟩
theorem rdIrqStatusCh1 : Statement .rdIrqStatusCh1 := ⟨rfl, rfl⟩
theorem rdIrqStatusCh2 : Statement .rdIrqStatusCh2 := ⟨rfl, rfl⟩
theorem rdIrqEnableCh0 : Statement .rdIrqEnableCh0 := ⟨rfl, rfl⟩
theorem rdIrqEnableCh1 : Statement .rdIrqEnableCh1 := ⟨rfl, rfl⟩
theorem rdIrqEnableCh2 : Statement .rdIrqEnableCh2 := ⟨rfl, rfl⟩
theorem rdEventCtrlCh0 : Statement .rdEventCtrlCh0 := ⟨rfl, rfl⟩
theorem rdEventCtrlCh1 : Statement .rdEventCtrlCh1 := ⟨rfl, rfl⟩
theorem rdEventCtrlCh2 : Statement .rdEventCtrlCh2 := ⟨rfl, rfl⟩
theorem rdEventRegCh0 : Statement .rdEventRegCh0 := ⟨rfl, rfl⟩
theorem rdEventRegCh1 : Statement .rdEventRegCh1 := ⟨rfl, rfl⟩
theorem rdEventRegCh2 : Statement .rdEventRegCh2 := ⟨rfl, rfl⟩
theorem wrClkCtrlCh0 (v : Word) : Statement (.wrClkCtrlCh0 v) := ⟨rfl, rfl⟩
theorem wrClkCtrlCh1 (v : Word) : Statement (.wrClkCtrlCh1 v) := ⟨rfl, rfl⟩
theorem wrClkCtrlCh2 (v : Word) : Statement (.wrClkCtrlCh2 v) := ⟨rfl, rfl⟩
theorem wrCntCtrlCh0 (v : Word) : Statement (.wrCntCtrlCh0 v) := ⟨rfl, rfl⟩
theorem wrCntCtrlCh1 (v : Word) : Statement (.wrCntCtrlCh1 v) := ⟨rfl, rfl⟩
theorem wrCntCtrlCh2 (v : Word) : Statement (.wrCntCtrlCh2 v) := ⟨rfl, rfl⟩
theorem wrCounterValueCh0 (v : Word) : Statement (.wrCounterValueCh0 v) := ⟨rfl, rfl⟩
theorem wrCounterValueCh1 (v : Word) : Statement (.wrCounterValueCh1 v) := ⟨rfl, rfl⟩
theorem wrCounterValueCh2 (v : Word) : Statement (.wrCounterValueCh2 v) := ⟨rfl, rfl⟩
theorem wrIntervalCh0 (v : Word) : Statement (.wrIntervalCh0 v) := ⟨rfl, rfl⟩
theorem wrIntervalCh1 (v : Word) : Statement (.wrIntervalCh1 v) := ⟨rfl, rfl⟩
theorem wrIntervalCh2 (v : Word) : Statement (.wrIntervalCh2 v) := ⟨rfl, rfl⟩
theorem wrMatch1Ch0 (v : Word) : Statement (.wrMatch1Ch0 v) := ⟨rfl, rfl⟩
theorem wrMatch1Ch1 (v : Word) : Statement (.wrMatch1Ch1 v) := ⟨rfl, rfl⟩
theorem wrMatch1Ch2 (v : Word) : Statement (.wrMatch1Ch2 v) := ⟨rfl, rfl⟩
theorem wrMatch2Ch0 (v : Word) : Statement (.wrMatch2Ch0 v) := ⟨rfl, rfl⟩
theorem wrMatch2Ch1 (v : Word) : Statement (.wrMatch2Ch1 v) := ⟨rfl, rfl⟩
theorem wrMatch2Ch2 (v : Word) : Statement (.wrMatch2Ch2 v) := ⟨rfl, rfl⟩
theorem wrMatch3Ch0 (v : Word) : Statement (.wrMatch3Ch0 v) := ⟨rfl, rfl⟩
theorem wrMatch3Ch1 (v : Word) : Statement (.wrMatch3Ch1 v) := ⟨rfl, rfl⟩
theorem wrMatch3Ch2 (v : Word) : Statement (.wrMatch3Ch2 v) := ⟨rfl, rfl⟩
theorem wrIrqStatusCh0 (v : Word) : Statement (.wrIrqStatusCh0 v) := ⟨rfl, rfl⟩
theorem wrIrqStatusCh1 (v : Word) : Statement (.wrIrqStatusCh1 v) := ⟨rfl, rfl⟩
theorem wrIrqStatusCh2 (v : Word) : Statement (.wrIrqStatusCh2 v) := ⟨rfl, rfl⟩
theorem wrIrqEnableCh0 (v : Word) : Statement (.wrIrqEnableCh0 v) := ⟨rfl, rfl⟩
theorem wrIrqEnableCh1 (v : Word) : Statement (.wrIrqEnableCh1 v) := ⟨rfl, rfl⟩
theorem wrIrqEnableCh2 (v : Word) : Statement (.wrIrqEnableCh2 v) := ⟨rfl, rfl⟩
theorem wrEventCtrlCh0 (v : Word) : Statement (.wrEventCtrlCh0 v) := ⟨rfl, rfl⟩
theorem wrEventCtrlCh1 (v : Word) : Statement (.wrEventCtrlCh1 v) := ⟨rfl, rfl⟩
theorem wrEventCtrlCh2 (v : Word) : Statement (.wrEventCtrlCh2 v) := ⟨rfl, rfl⟩
theorem wrEventRegCh0 (v : Word) : Statement (.wrEventRegCh0 v) := ⟨rfl, rfl⟩
theorem wrEventRegCh1 (v : Word) : Statement (.wrEventRegCh1 v) := ⟨rfl, rfl⟩
theorem wrEventRegCh2 (v : Word) : Statement (.wrEventRegCh2 v) := ⟨rfl, rfl⟩
theorem configure (ch : Chan) (d p r : Word) : Statement (.configure ch d p r) := by cases ch <;> rfl
theorem enable (ch : Chan) : Statement (.enable ch) := by cases ch <;> rfl
theorem disable (ch : Chan) : Statement (.disable ch) := by cases ch <;> rfl
theorem setPolarity (ch : Chan) (p : Polarity) : Statement (.setPolarity ch p) := by cases ch <;> cases p <;> rfl
theorem teardown : Statement .teardown := rfl
theorem edge (ch : Chan) : Statement (.edge ch) := rfl

end Sys2Proof.Laws.TableRow
end

