-- ==== Sys2Proof/Tests/Slice0.lean ====
section
/-! SUPPORT. The model's own tests. Expected results come from the spec: the vectors V-… and programs P1 to P3 of
95_test_vectors, the encodings of 30_encoding; and, for every statement with hypotheses, a state that meets them. -/

namespace Sys2Proof.Tests

open Sys2Proof Sys2Proof.Machine

/-! ## Helpers -/

/-- The next state of an outcome, if it is one. -/
def nextOf : Host.Outcome State Fault Refusal → Option State
  | .next t => some t
  | .fault _ => none
  | .refused _ => none

/-- The refusal of an outcome, if it is one. -/
def refusalOf : Host.Outcome State Fault Refusal → Option Refusal
  | .next _ => none
  | .fault _ => none
  | .refused r => some r

/-- The fault of an outcome, if it is one. -/
def faultOf : Host.Outcome State Fault Refusal → Option Fault
  | .next _ => none
  | .fault r => some r
  | .refused _ => none

/-- Reset with one channel changed. -/
def withChan (ch : Chan) (f : Channel → Channel) : State := State.reset.setChan ch (f (State.reset.chan ch))

/-- Reset with a script. -/
def withScript (l : List Item) : State := { State.reset with script := l }

/-- Channel 0 with its clock running and the given registers, as the vectors V-T set it up. -/
def ticking (cntCtrl clkCtrl : Word) (interval match1 counter psCnt : Half) (active : Bool) : State :=
  withChan .c0 fun c => { c with
    clkOn := true, cntCtrl := cntCtrl, clkCtrl := clkCtrl, interval := interval, match1 := match1, counter := counter
    psCnt := psCnt, active := active }

/-- `CNT_CTRL`, `COUNTER`, `ps_cnt`, `active` and the pin of channel 0 after an edge. -/
def afterEdge (s : State) : Option (Word × Half × Half × Bool × Bool) :=
  (nextOf (exec (.edge .c0) s)).map fun t =>
    ((t.chan .c0).cntCtrl, (t.chan .c0).counter, (t.chan .c0).psCnt, (t.chan .c0).active, t.waveOut .c0)

/-- The CONFIGURE of program P1, accepted on a channel of the reset state, and `n` of its micro-steps. -/
def configuring (n : Nat) : State :=
  microSteps .c0 n ((State.reset.setSeq .c0 { latch Seq.reset .configure .normal with
    dutyNs := 1500000, periodNs := 20000000, rateHz := 50000000 }))

/-- An accepted command on channel 0, and `n` of its micro-steps, from a state. -/
def commanded (op : Command) (n : Nat) (s : State) : State :=
  microSteps .c0 n (s.setSeq .c0 (latch (s.seq .c0) op .inverted))

/-- Parameters other than the default: reversed kind table, another layout of both registers. -/
def otherConfig : Config :=
  { Config.default with
    base := 0x40
    kindOf := Kind.all.reverse
    clk := { psEn := 31, psShift := 8, cSrc := 0 }
    cnt := { dis := 6, int := 5, dec := 4, matchEn := 3, rst := 2, waveDis := 1, wavePol := 0 }
    clkImplMask := 0x80000F01
    extClk := PerChan.const true }

/-! ## Well-formedness: an ill-formed term for each check beside the nearest accepted (95_test_vectors 2.6) -/

theorem test_wf_negative_duty : (Instr.configure .c0 (-1) 1000 50000000).wellFormed = false := by decide
theorem test_wf_zero_duty : (Instr.configure .c0 0 1000 50000000).wellFormed = true := by decide
theorem test_wf_rate_zero : (Instr.configure .c0 0 1000 0).wellFormed = false := by decide
theorem test_wf_rate_one : (Instr.configure .c0 0 1000 1).wellFormed = true := by decide
theorem test_wf_period_code : (Instr.configure .c0 0 1000000001 4294967295).wellFormed = false := by decide
theorem test_wf_period_largest : (Instr.configure .c0 0 1000000000 4294967295).wellFormed = true := by decide
theorem test_wf_negative_period : (Instr.configure .c0 0 (-1) 50000000).wellFormed = true := by decide

/-! ## Decoding: words written out bit by bit (30_encoding R60 to R62, R67) -/

/-- `RD CNT_CTRL_0`: `we` 0, offset 4 * (3 * 1 + 0) = 0x0C. -/
theorem test_decode_rd : decodeItem Config.default (.bus .word 0b000001100#9 0) = .instr .rdCntCtrlCh0 := by decide
/-- `WR INTERVAL_2`: `we` 1, offset 4 * (3 * 3 + 2) = 0x2C. -/
theorem test_decode_wr : decodeItem Config.default (.bus .word 0b100101100#9 5) = .instr (.wrIntervalCh2 5) := by decide
/-- `RD EVENT_REG_2`: offset 0x80, the last register. -/
theorem test_decode_last : decodeItem Config.default (.bus .word 0b010000000#9 0) = .instr .rdEventRegCh2 := by decide
/-- Offset 0x84 is past the region, 0x0D is no multiple of 4. -/
theorem test_decode_outside : decodeItem Config.default (.bus .word 0b010000100#9 0) = .badAccess 0x84#8 := by decide
theorem test_decode_unaligned : decodeItem Config.default (.bus .word 0b100001101#9 0) = .badAccess 0x0D#8 := by decide
theorem test_decode_half : decodeItem Config.default (.bus .half 0b000001100#9 0) = .badAccess 0x0C#8 := by decide
/-- Command words 0x02, 0x05, 0x0A, 0x1D. -/
theorem test_decode_configure :
    decodeItem Config.default (.command 0b00000010#8 1 2 3) = .instr (.configure .c2 1 2 3) := by decide
theorem test_decode_enable : decodeItem Config.default (.command 0b00000101#8 0 0 0) = .instr (.enable .c1) := by decide
theorem test_decode_disable : decodeItem Config.default (.command 0b00001010#8 0 0 0) = .instr (.disable .c2) := by decide
theorem test_decode_set_polarity :
    decodeItem Config.default (.command 0b00011101#8 0 0 0) = .instr (.setPolarity .c1 .inverted) := by decide
/-- Reserved command words 0x03, 0x24, 0x14 (95_test_vectors 2.6). -/
theorem test_decode_reserved_channel :
    decodeItem Config.default (.command 0b00000011#8 0 0 0) = .reservedCommand 0x03#8 := by decide
theorem test_decode_reserved_bits :
    decodeItem Config.default (.command 0b00100100#8 0 0 0) = .reservedCommand 0x24#8 := by decide
theorem test_decode_reserved_polarity :
    decodeItem Config.default (.command 0b00010100#8 0 0 0) = .reservedCommand 0x14#8 := by decide
theorem test_decode_teardown : decodeItem Config.default .teardown = .instr .teardown := by decide
theorem test_decode_edge : decodeItem Config.default (.edge .c1) = .instr (.edge .c1) := by decide
/-- Under another kind table the same word names another register. -/
theorem test_decode_other_table :
    decodeItem otherConfig (.bus .word 0b000001100#9 0) = .instr .rdEventCtrlCh0 := by decide
/-- Table words of both formats: `WR.MATCH1_2` 0x138 in 16 bits, `SET_POLARITY` 0x0C in 8. -/
theorem test_table_word : decodeTableWord 16 0x138 = some (.wrMatch1Ch2 0) ∧
    decodeTableWord 8 0x0C = some (.setPolarity .c0 .normal) := by decide
/-- The word placed for the next step is the one it runs: `RD.CNT_CTRL_2` from reset. -/
theorem test_fetch_word : (nextOf (step (State.reset.withFetchWord 16 0x014))).map (·.trace) =
    some [.acc .R 0x21 .c2 .cntCtrl] := by decide

/-! ## Raw register accesses (95_test_vectors 2.2) -/

/-- V-R14 and R83: the reset value. -/
theorem test_rd_cnt_ctrl : (nextOf (exec .rdCntCtrlCh0 State.reset)).map (·.trace) =
    some [.acc .R 0x21 .c0 .cntCtrl] := by decide
/-- V-R2: unimplemented bits. -/
theorem test_wr_clk_ctrl : (nextOf (exec (.wrClkCtrlCh1 0xFFFFFFFF) State.reset)).map (fun t => (t.chan .c1).clkCtrl) =
    some 0x7F := by decide
/-- V-R5: the mask, and the pin at the write. -/
theorem test_wr_cnt_ctrl : (nextOf (exec (.wrCntCtrlCh0 0xFFFFFF5A) State.reset)).map
    (fun t => ((t.chan .c0).cntCtrl, State.reset.waveOut .c0, t.waveOut .c0)) = some (0x5A, false, true) := by decide
/-- V-R8: the write is logged and ignored. -/
theorem test_wr_counter_value : (nextOf (exec (.wrCounterValueCh0 5) State.reset)).map
    (fun t => ((t.chan .c0).counter, t.trace)) = some (0, [.acc .W 5 .c0 .counterValue]) := by decide
/-- V-R7, on a live counter. -/
theorem test_rd_counter_value : (nextOf (exec .rdCounterValueCh0 (ticking 0x4A 0 3 2 2 0 false))).map (·.trace) =
    some [.acc .R 2 .c0 .counterValue] := by decide
/-- V-R9 and V-R15: 16 bits are stored, the presented value is logged. -/
theorem test_wr_interval : (nextOf (exec (.wrIntervalCh2 0x00010005) State.reset)).map
    (fun t => ((t.chan .c2).interval, t.trace)) = some (5, [.acc .W 0x10005 .c2 .interval]) := by decide
/-- V-R10. -/
theorem test_wr_match1 : (nextOf (exec (.wrMatch1Ch0 4687) State.reset)).map (fun t => (t.chan .c0).match1) =
    some 0x124F := by decide
/-- V-R11, V-R12. -/
theorem test_wr_match2 : (nextOf (exec (.wrMatch2Ch0 7) State.reset)).map (fun t => (t.chan .c0).match2) =
    some 7 := by decide
theorem test_wr_match3 : (nextOf (exec (.wrMatch3Ch1 0xABCD) State.reset)).map (fun t => (t.chan .c1).match3) =
    some 0xABCD := by decide
/-- V-R13. -/
theorem test_rd_irq_status : refusalOf (exec .rdIrqStatusCh0 State.reset) = some (.unmodelledKind .irqStatus .c0) := by
  decide
theorem test_wr_irq_enable : refusalOf (exec (.wrIrqEnableCh1 0) State.reset) = some (.unmodelledKind .irqEnable .c1) := by
  decide
theorem test_rd_event_ctrl : refusalOf (exec .rdEventCtrlCh2 State.reset) = some (.unmodelledKind .eventCtrl .c2) := by
  decide
theorem test_rd_event_reg : refusalOf (exec .rdEventRegCh0 State.reset) = some (.unmodelledKind .eventReg .c0) := by
  decide
/-- The symbolic name of a traced access (30_encoding R73). -/
theorem test_symbolic_name : symbolicName (.reg .counterValue) .c0 = "COUNTER_VALUE_0" := by decide

/-! ## CONFIGURE arithmetic (95_test_vectors 2.3) -/

/-- V-C1, rows 1 and 3. -/
theorem test_ticks : ticks 20000000 50000000 = 1000000 ∧ ticks 250000 111111111 = 27777 := by decide
/-- V-C2: both sides of the first boundary, and the largest. -/
theorem test_exponent : exponent 65535 = 0 ∧ exponent 65536 = 1 ∧ exponent 131072 = 2 ∧ exponent 4294967295 = 16 := by
  decide
/-- V-C1, rows 1 and 9. -/
theorem test_threshold : threshold 1000000 4 = 62500 ∧ threshold 200000 1 = 34464 := by decide
/-- V-C3. -/
theorem test_clkval : clkval Config.default 0x7F 3 true = 0x65 ∧ clkval Config.default 0x7F 0 false = 0x40 ∧
    clkval Config.default 0x40 16 true = 0x7F := by decide
/-- V-C4. -/
theorem test_cntval : cntval Config.default 0x7F .normal = 0x7B ∧ cntval Config.default 0x4E .inverted = 0x1A := by decide
/-- V-C5. -/
theorem test_quiesce : quiesceVal Config.default 0x4A = 0x4B := by decide
/-- V-L1, V-L2. -/
theorem test_enable_value : enableVal Config.default 0x7B = 0x5A ∧ enableVal Config.default 0x7F = 0x5E := by decide
theorem test_disable_value : disableVal Config.default 0x5A = 0x7B ∧ disableVal Config.default 0x0A = 0x2B := by decide

/-! ## Commands (programs P1 and P3, vectors V-L) -/

/-- P1, line 1: the interval write, the restore write and what stands after it. -/
theorem test_configure_writes :
    ((configuring 9).trace.getLast?, ((configuring 9).chan .c0).interval) =
      (some (.acc .W 0xF424 .c0 .interval), 62500) ∧
    (fun c : Channel => (c.cntCtrl, c.clkCtrl, c.last, c.phase)) ((configuring 11).chan .c0) =
      (0x7B, 7, some { e := 4, intervalCount := 62500, matchCount := 4687 }, .configured) := by decide
/-- P3 a: a negative period; 95_test_vectors 2.6: refused at acceptance, duty before period. -/
theorem test_configure_fails :
    (microStep .c0 (State.reset.setSeq .c0 { latch Seq.reset .configure .normal with
      periodNs := -1, rateHz := 50000000 })).trace = [.done .c0 .configure .invalidArgument] ∧
    refusalOf (exec (.configure .c0 (-1) (-1) 50000000) State.reset) = some (.negativeDuty .c0) ∧
    refusalOf (exec (.configure .c0 0 1000 0) State.reset) = some (.rateNotPositive .c0) := by decide
/-- P1, line 3: ENABLE reads 0x6B and writes 0x5A. -/
theorem test_enable : ((commanded .enable 3 (withChan .c0 fun c => { c with cntCtrl := 0x6B })).chan .c0).cntCtrl =
    0x5A := by decide
/-- P1, line 9: DISABLE reads 0x4A, writes 0x6B, then stops the clock. -/
theorem test_disable : (fun c : Channel => (c.cntCtrl, c.clkOn, c.phase))
    ((commanded .disable 3 (ticking 0x4A 7 62500 4687 0 0 true)).chan .c0) = (0x6B, false, .disabled) := by decide
/-- V-L4: the polarity is latched and nothing else. -/
theorem test_set_polarity : (fun s : State => ((s.chan .c0).pol, (s.chan .c0).cntCtrl, s.waveOut .c0, s.trace))
    (commanded .setPolarity 1 (ticking 0x4A 7 62500 4687 0 0 true)) =
    (.inverted, 0x4A, true, [.done .c0 .setPolarity .ok]) := by decide
/-- V-L3, P3 c: the clock does not start. -/
theorem test_clock_unavailable : (fun s : State => ((s.chan .c0).clkOn, s.trace, s.clkFail.c0))
    (commanded .enable 1 { State.reset with clkFail := { c0 := true, c1 := false, c2 := false } }) =
    (false, [.done .c0 .enable .clockUnavailable], false) := by decide
/-- 30_encoding R72: the expansion begins with `DISABLE 0`, command word 0x08. -/
theorem test_teardown : (nextOf (exec .teardown (withScript [.teardown]))).map (·.script) = some
    [.command 0x08 0 0 0, .cue (.await .c0), .command 0x09 0 0 0, .cue (.await .c1), .command 0x0A 0 0 0,
     .cue (.await .c2)] := by decide

/-! ## Clock edges (95_test_vectors 2.4) -/

/-- V-T1, match and wrap edges; V-T3, overflow above the interval; V-T5, a tick after the divisor shrank; V-T10, the last
edge without a tick at divide by 65536. -/
theorem test_edge_counts :
    afterEdge (ticking 0x4A 0 3 2 1 0 true) = some (0x4A, 2, 0, false, false) ∧
    afterEdge (ticking 0x4A 0 3 2 3 0 false) = some (0x4A, 0, 0, true, true) ∧
    afterEdge (ticking 0x4A 0 5 50 65535 0 false) = some (0x4A, 0, 0, true, true) ∧
    afterEdge (ticking 0x4A 0x03 100 50 0 10 true) = some (0x4A, 1, 0, true, true) ∧
    afterEdge (ticking 0x4A 0x1F 3 1 0 65534 true) = some (0x4A, 0, 65535, true, true) :=
  ⟨by decide, by decide, by decide, by decide, by decide⟩
/-- V-T1, reset edge; V-T7, reset on a stopped counter with a match at 0; V-T6, counting disabled; V-T8a and V-T8b, refused;
V-T11, clock stopped. -/
theorem test_edge_otherwise :
    afterEdge (ticking 0x5A 0 3 2 7 0 true) = some (0x4A, 0, 0, true, true) ∧
    afterEdge (ticking 0x7B 0 3 0 0 0 true) = some (0x6B, 0, 0, false, false) ∧
    afterEdge (ticking 0x4B 0x03 100 50 1 2 true) = some (0x4B, 1, 2, true, true) ∧
    refusalOf (exec (.edge .c0) (ticking 0x4E 0 0 0 0 0 true)) = some (.countingModeNotAdmitted .c0) ∧
    refusalOf (exec (.edge .c0) (ticking 0x48 0 0 0 0 0 true)) = some (.countingModeNotAdmitted .c0) ∧
    nextOf (exec (.edge .c0) (withScript [.edge .c0])) = some State.reset :=
  ⟨by decide, by decide, by decide, by decide, by decide, by decide⟩

/-! ## Witnesses: for every statement with hypotheses, inputs that meet them together, clause by clause -/

/-- A state with a busy sequencer on one channel. -/
def busyAt (ch : Chan) (pc : MicroState) : State := State.reset.goto ch pc

/-- Reset with the next clock enable of channel 0 failing. -/
def failing : State := { State.reset with clkFail := { c0 := true, c1 := false, c2 := false } }

theorem witness_DecodeEncodeAgree : Config.default.WellFormed ∧ otherConfig.WellFormed := by decide

theorem witness_EncodeDecodeAgree : Config.default.KindsOk ∧
    decodeItem Config.default (.bus .word 0b110000000#9 7) = .instr (.wrEventRegCh2 7) ∧
    decodeItem Config.default (.bus .word 0b000000000#9 7) = .instr .rdClkCtrlCh0 ∧
    decodeItem Config.default (.command 0b00000000#8 1 2 3) = .instr (.configure .c0 1 2 3) ∧
    decodeItem Config.default (.command 0b00011110#8 1 2 3) = .instr (.setPolarity .c2 .inverted) ∧
    decodeItem Config.default .teardown = .instr .teardown ∧
    decodeItem Config.default (.edge .c2) = .instr (.edge .c2) := by decide

theorem witness_OffsetNamesRegister : otherConfig.KindsOk ∧ Config.default.KindsOk ∧
    Config.default.locate 0x80 = some (.dead .eventReg, .c2) ∧ Config.default.locate 0x84 = none ∧
    Config.default.locate 0 = some (.reg .clkCtrl, .c0) ∧ otherConfig.locate 0x80 = some (.reg .clkCtrl, .c2) := by decide

theorem witness_SampleWordsDecode : Config.default.kindOf = Kind.all := by decide

theorem witness_RegistersDoNotAlias : otherConfig.WellFormed ∧
    otherConfig.addr (.reg .clkCtrl) .c2 = otherConfig.addr (.reg .clkCtrl) .c2 := by decide

/-- The first offset past the region, an unaligned one, the first offset of kind 7, the three ways a command word is
reserved, the three operands outside the contract, two values that differ outside the mask only. -/
theorem witness_ReservedEncodings : (withScript [.bus .word 0b010000100#9 0]).Unstopped ∧
    (twOffset 0b010000100#9).toNat ≥ 0x84 ∧ (twOffset 0b000000001#9).toNat % 4 ≠ 0 ∧
    Config.default.locate (twOffset 0b001010100#9).toNat = some (.dead .irqStatus, .c0) ∧
    (0x03#8).extractLsb' 0 2 = 3 ∧ (0x24#8).extractLsb' 5 3 ≠ 0 ∧
    ((0x14#8).getLsbD 4 = true ∧ (0x14#8).extractLsb' 2 2 ≠ 0b11#2) ∧ State.reset.busy .c0 = false ∧
    (-1 : Word).toInt < 0 ∧
    (0 ≤ (1000000001 : Word).toInt ∧
      (1000000001 : Word).toNat * (4294967295 : Word).toNat / 1000000000 ≥ 2 ^ 32) ∧
    (0x80 : Word) &&& Config.default.clkImplMask = (0 : Word) &&& Config.default.clkImplMask ∧
    (0x80 : Word) &&& Config.default.cntImplMask = (0 : Word) &&& Config.default.cntImplMask ∧
    (0x10000 : Word) &&& 0xFFFF = (0 : Word) &&& 0xFFFF := by
  refine ⟨?_, ?_, ?_, ?_, ?_, ?_, ?_, ?_, ?_, ?_, ?_, ?_, ?_⟩ <;> decide

theorem witness_StepRunsDecodedInstruction : (withScript [.command 0x04#8 0 0 0]).Unstopped ∧
    decodeItem (withScript [.command 0x04#8 0 0 0]).cfg (.command 0x04#8 0 0 0) = .instr (.enable .c0) := by decide

/-- A busy sequencer on each channel in turn with the lower ones idle, nothing to do, and each cue. -/
theorem witness_StepSchedules : State.reset.Unstopped ∧ State.reset.script = [] ∧
    (busyAt .c0 .eRd).busy .c0 = true ∧
    ((busyAt .c1 .eRd).busy .c0 = false ∧ (busyAt .c1 .eRd).busy .c1 = true) ∧
    ((busyAt .c2 .eRd).busy .c0 = false ∧ (busyAt .c2 .eRd).busy .c1 = false ∧ (busyAt .c2 .eRd).busy .c2 = true) ∧
    (withScript [.cue (.micro .c1)]).Unstopped ∧ (withScript [.cue (.await .c1)]).busy .c1 = false ∧
    (withScript [.cue (.clkFail .c1)]).Unstopped := by
  refine ⟨?_, ?_, ?_, ?_, ?_, ?_, ?_, ?_⟩ <;> decide

theorem witness_StepSchedules_final : State.reset.Final :=
  ⟨rfl, fun ch => by cases ch <;> rfl, rfl, rfl⟩

/-- A byte access to a valid offset, an unaligned word, and the first word past the region. -/
theorem witness_BadAccessFaults : (withScript [.bus .byte 0b000001100#9 0]).Unstopped ∧ AccessWidth.byte ≠ .word ∧
    (twOffset 0b000001101#9).toNat % 4 ≠ 0 ∧ (twOffset 0b010000100#9).toNat ≥ 0x84 := by decide

theorem witness_StopFlagsAreSticky :
    faultOf (step (withScript [.bus .word 0b010000100#9 0])) = some (.hardwareFault 0x84#8) ∧
    refusalOf (step (withScript [.command 0x03#8 0 0 0])) = some (.reservedCommand 0x03#8) ∧
    (advance (withScript [.bus .word 0b010000100#9 0])).faulted = true ∧
    (advance (withScript [.command 0x03#8 0 0 0])).refused = true ∧ (nextOf (step State.reset)).isSome = true := by
  refine ⟨?_, ?_, ?_, ?_, ?_⟩ <;> decide

/-- A step with two events: the last micro-step of an ENABLE. -/
theorem witness_TraceOnlyGrows : (nextOf (step (busyAt .c0 .eWr))).map (·.trace.length) = some 2 := by decide

theorem witness_ParametersNeverChange : (nextOf (step (withScript [.command 0x04#8 0 0 0]))).isSome = true := by decide

theorem reset_chan (cfg : Config) (ch : Chan) : (State.resetWith cfg).chan ch = Channel.reset cfg := by cases ch <;> rfl

theorem reset_inv : State.reset.Inv :=
  ⟨by decide, fun ch => by
    rw [State.reset, reset_chan]
    exact ChannelInv.ofIdle (by decide) (by decide) (fun a h => by cases h) rfl⟩

/-- An idle channel, the invariant, and a bit outside the mask. -/
theorem witness_AccessClkCtrl : State.reset.busy .c0 = false ∧ State.reset.Inv ∧
    State.reset.cfg.clkImplMask.getLsbD 7 = false := ⟨by decide, reset_inv, by decide⟩
theorem witness_AccessCntCtrl : State.reset.busy .c0 = false ∧ State.reset.Inv ∧
    State.reset.cfg.cntImplMask.getLsbD 7 = false := ⟨by decide, reset_inv, by decide⟩
theorem witness_AccessCounterValue : (ticking 0x4A 0 3 2 65535 0 true).busy .c0 = false := by decide
theorem witness_AccessInterval : State.reset.busy .c0 = false := by decide
theorem witness_AccessMatch1 : State.reset.busy .c1 = false := by decide
theorem witness_AccessMatch2And3 : State.reset.busy .c2 = false := by decide

theorem witness_HostWaitsForBusyChannel : (busyAt .c1 .cRdCnt).busy .c1 = true := by decide

/-- Each kind of step from an idle channel, an address outside the written word and the bytes on its two sides. -/
theorem witness_RegionByteFrame : State.reset.cfg.KindsOk ∧ State.reset.busy .c0 = false ∧
    (nextOf (exec (Instr.ofRead (.reg .clkCtrl) .c0) State.reset)).isSome = true ∧
    (nextOf (exec (Instr.ofWrite (.reg .cntCtrl) .c0 1) State.reset)).isSome = true ∧
    (0x0B < State.reset.cfg.off (.reg .cntCtrl) .c0 ∧ State.reset.cfg.off (.reg .cntCtrl) .c0 + 4 ≤ 0x10) ∧
    (nextOf (exec (.configure .c0 0 0 1) State.reset)).isSome = true ∧
    (nextOf (exec (.enable .c0) State.reset)).isSome = true ∧
    (nextOf (exec (.disable .c0) State.reset)).isSome = true ∧
    (nextOf (exec (.setPolarity .c0 .inverted) State.reset)).isSome = true ∧
    (nextOf (exec .teardown State.reset)).isSome = true ∧
    (nextOf (exec (.edge .c0) State.reset)).isSome = true := by
  refine ⟨?_, ?_, ?_, ?_, ?_, ?_, ?_, ?_, ?_, ?_, ?_⟩ <;> decide

theorem witness_EdgeWithClockStopped : (State.reset.chan .c0).clkOn = false := by decide

theorem witness_EdgeServicesReset : (ticking 0x7B 0 3 0 0 0 true).cfg.WellFormed ∧
    ((ticking 0x7B 0 3 0 0 0 true).chan .c0).clkOn = true ∧
    ((ticking 0x7B 0 3 0 0 0 true).chan .c0).cntCtrl.getLsbD (ticking 0x7B 0 3 0 0 0 true).cfg.cnt.rst = true := by
  refine ⟨?_, ?_, ?_⟩ <;> decide

theorem witness_EdgeWithCountingDisabled : (fun c : Channel => (c.clkOn, c.cntCtrl.getLsbD Config.default.cnt.rst,
    c.cntCtrl.getLsbD Config.default.cnt.dis)) ((ticking 0x4B 3 100 50 1 2 true).chan .c0) = (true, false, true) := by
  decide

/-- `DEC` = 1, and `INT` = 0. -/
theorem witness_EdgeInOtherModeRefused :
    (fun c : Channel => (c.clkOn, c.cntCtrl.getLsbD 4, c.cntCtrl.getLsbD 0, c.cntCtrl.getLsbD 2))
      ((ticking 0x4E 0 0 0 0 0 true).chan .c0) = (true, false, false, true) ∧
    (fun c : Channel => (c.clkOn, c.cntCtrl.getLsbD 4, c.cntCtrl.getLsbD 0, c.cntCtrl.getLsbD 1))
      ((ticking 0x48 0 0 0 0 0 true).chan .c0) = (true, false, false, false) := by
  decide

/-- Divide by 16 one edge below a tick and at the tick; the prescaler off; a wrap at the interval and at the overflow. -/
theorem witness_EdgeCounts :
    (fun c : Channel => (c.clkOn, c.cntCtrl.getLsbD 4, c.cntCtrl.getLsbD 0, c.cntCtrl.getLsbD 1, c.cntCtrl.getLsbD 2))
      ((ticking 0x4A 7 3 2 3 14 true).chan .c0) = (true, false, false, true, false) ∧
    divisor Config.default ((ticking 0x4A 7 3 2 3 14 true).chan .c0).clkCtrl = 16 ∧
    ((ticking 0x4A 7 3 2 3 14 true).chan .c0).psCnt.toNat + 1 < 16 ∧
    ((ticking 0x4A 7 3 2 3 15 true).chan .c0).psCnt.toNat + 1 ≥ 16 ∧
    divisor Config.default ((ticking 0x4A 6 3 2 65535 0 true).chan .c0).clkCtrl = 1 := by
  refine ⟨?_, ?_, ?_, ?_, ?_⟩ <;> decide

theorem witness_SteadyStateWaveform : (ticking 0x5A 7 62500 4687 0 0 true).cfg.WellFormed ∧
    ((ticking 0x5A 7 62500 4687 0 0 true).chan .c0).clkOn = true ∧
    rst Config.default 0x5A = true ∧ dis Config.default 0x5A = false ∧ int Config.default 0x5A = true ∧
    dec Config.default 0x5A = false ∧ matchEn Config.default 0x5A = true ∧ waveDis Config.default 0x5A = false := by
  refine ⟨?_, ?_, ?_, ?_, ?_, ?_, ?_, ?_⟩ <;> decide

/-- The largest operands. -/
theorem witness_TicksAreExact : 2147483647 < 2 ^ 31 ∧ 4294967295 < 2 ^ 32 ∧
    ticks 2147483647 4294967295 = 9223372030 := by decide

theorem witness_ExponentIsLeast : 0 < exponent 65536 ∧ 4294967295 < 2 ^ 32 ∧ bitlen 65535 = 16 := by decide

/-- Exponents 0 and 16, and a bit outside the fields (`EX_E`). -/
theorem witness_ClockControlValue : otherConfig.WellFormed ∧ 16 ≤ 16 ∧ 6 ≠ Config.default.clk.psEn ∧
    6 ≠ Config.default.clk.cSrc ∧ Config.default.clk.psShift + 4 ≤ 6 ∧ psV Config.default 0x1F = 16 - 1 := by decide

/-- A bit that step 7 keeps: `WAVE_DIS`. -/
theorem witness_CounterControlValue : otherConfig.WellFormed ∧ 5 ≠ Config.default.cnt.dec ∧ 5 ≠ Config.default.cnt.int ∧
    5 ≠ Config.default.cnt.rst ∧ 5 ≠ Config.default.cnt.matchEn ∧ 5 ≠ Config.default.cnt.wavePol := by decide

theorem witness_RoundTripAtZeroPrescaler : Config.default.WellFormed ∧ 65535 ≤ 65535 := by decide

/-- Each clause at its boundary: duty -1 and 0, rate 0 and 1, the first period too long and the last accepted. -/
theorem witness_AcceptConfigure : State.reset.busy .c0 = false ∧ (-1 : Word).toInt < 0 ∧ 0 ≤ (0 : Word).toInt ∧
    (1 : Word) ≠ 0 ∧ 0 ≤ (1000000001 : Word).toInt ∧
    2 ^ 32 ≤ ticks (1000000001 : Word).toNat (4294967295 : Word).toNat ∧
    ticks (1000000000 : Word).toNat (4294967295 : Word).toNat < 2 ^ 32 := by
  refine ⟨?_, ?_, ?_, ?_, ?_, ?_, ?_⟩ <;> decide

theorem witness_AcceptOtherCommands : (withScript [.command 0x1C#8 0 0 0]).busy .c0 = false := by decide

/-- A CONFIGURE with a negative period, accepted. -/
def negative : State :=
  State.reset.setSeq .c0 { latch Seq.reset .configure .normal with periodNs := -1, rateHz := 50000000 }

theorem witness_NegativePeriodFails : State.reset.busy .c0 = false ∧ 0 ≤ (0 : Word).toInt ∧ (50000000 : Word) ≠ 0 ∧
    (-1 : Word).toInt < 0 ∧ (microStep .c0 negative).trace = negative.trace ++ [.done .c0 .configure .invalidArgument] := by
  decide

theorem witness_ClockFailureChangesNothing : failing.busy .c0 = false ∧ failing.clkFail.get .c0 = true ∧
    0 ≤ (1500000 : Word).toInt ∧ (50000000 : Word) ≠ 0 ∧ 0 ≤ (20000000 : Word).toInt ∧
    ticks (20000000 : Word).toNat (50000000 : Word).toNat < 2 ^ 32 ∧
    (microStep .c0 (failing.goto .c0 .cClk)).trace = failing.trace ++ [.done .c0 .configure .clockUnavailable] := by
  refine ⟨?_, ?_, ?_, ?_, ?_, ?_, ?_⟩ <;> decide

/-- The micro-states of program P1's CONFIGURE in their order, a negative period, and a clock that fails. -/
theorem witness_ConfigureMicroSteps :
    ([0, 1, 2, 3, 4, 5, 6, 7, 8, 9, 10].map fun n => ((configuring n).seq .c0).pc) =
      [.cCheck, .cClk, .cRdCnt, .cWrQuiesce, .cCalcP, .cRdClk, .cWrClk, .cCalcD, .cWrInt, .cWrM1, .cWrRestore] ∧
    0 ≤ ((configuring 0).seq .c0).periodNs.toInt ∧ (configuring 1).clkFail.get .c0 = false ∧
    ((negative.seq .c0).pc = .cCheck ∧ (negative.seq .c0).periodNs.toInt < 0) ∧
    (((failing.goto .c0 .cClk).seq .c0).pc = .cClk ∧ (failing.goto .c0 .cClk).clkFail.get .c0 = true) := by
  refine ⟨?_, ?_, ?_, ?_, ?_⟩ <;> decide

/-- The micro-states of ENABLE, DISABLE and SET_POLARITY, and a clock that fails. -/
theorem witness_LifecycleMicroSteps :
    ([0, 1, 2].map fun n => ((commanded .enable n State.reset).seq .c0).pc) = [.eClk, .eRd, .eWr] ∧
    ([0, 1, 2].map fun n => ((commanded .disable n State.reset).seq .c0).pc) = [.dRd, .dWr, .dClkoff] ∧
    ((commanded .setPolarity 0 State.reset).seq .c0).pc = .pSet ∧ State.reset.clkFail.get .c0 = false ∧
    (((commanded .enable 0 failing).seq .c0).pc = .eClk ∧ (commanded .enable 0 failing).clkFail.get .c0 = true) := by
  refine ⟨?_, ?_, ?_, ?_, ?_⟩ <;> decide

/-- Program P1, and the largest admitted period. -/
theorem witness_ConfigureSequence : State.reset.cfg.WellFormed ∧ State.reset.busy .c0 = false ∧
    State.reset.clkFail.get .c0 = false ∧ 0 ≤ (1500000 : Word).toInt ∧ (50000000 : Word) ≠ 0 ∧
    0 ≤ (20000000 : Word).toInt ∧
    1000000 = (20000000 : Word).toNat * (50000000 : Word).toNat / 1000000000 ∧ 1000000 < 2 ^ 32 ∧
    75000 = (1500000 : Word).toNat * (50000000 : Word).toNat / 1000000000 ∧ 4 = exponent 1000000 ∧
    clkval Config.default 0 4 false = 7 ∧
    4294967295 = (1000000000 : Word).toNat * (4294967295 : Word).toNat / 1000000000 ∧ 16 = exponent 4294967295 := by
  refine ⟨?_, ?_, ?_, ?_, ?_, ?_, ?_, ?_, ?_, ?_, ?_, ?_, ?_⟩ <;> decide

/-- Program P1's CONFIGURE before its last micro-step meets the invariant. -/
theorem witness_ConfigureResultUnderInterleaving : (configuring 10).Inv ∧ ((configuring 10).seq .c0).pc = .cWrRestore := by
  refine ⟨⟨by decide, fun ch => ?_⟩, by decide⟩
  cases ch
  · constructor
    case lastRange => exact fun a h => by cases h
    case opLatched => exact fun op h => by cases op <;> first | rfl | (revert h; decide)
    all_goals decide
  · exact ChannelInv.ofIdle (by decide) (by decide) (fun a h => by cases h) rfl
  · exact ChannelInv.ofIdle (by decide) (by decide) (fun a h => by cases h) rfl

/-- Right after the quiesce write, and at the restore write. -/
theorem witness_QuiescedCounterStandsStill : (configuring 10).Inv ∧ ((configuring 10).seq .c0).ConfigureFrom 5 ∧
    ((configuring 4).seq .c0).ConfigureFrom 5 :=
  ⟨witness_ConfigureResultUnderInterleaving.1, by decide, by decide⟩

theorem witness_EnableSequence : State.reset.busy .c0 = false ∧ State.reset.clkFail.get .c0 = false ∧
    failing.busy .c0 = false := by decide

theorem witness_DisableSequence : State.reset.busy .c0 = false ∧ failing.busy .c0 = false := by decide

theorem witness_DisableIsIdempotent : State.reset.cfg.WellFormed ∧ State.reset.busy .c0 = false ∧
    ((nextOf (exec (.disable .c0) State.reset)).bind fun t =>
      nextOf (exec (.disable .c0) (microSteps .c0 3 t))).isSome = true := by
  refine ⟨?_, ?_, ?_⟩ <;> decide

theorem witness_SetPolarityOnlyLatches : (ticking 0x4A 7 62500 4687 0 0 true).busy .c0 = false := by decide

theorem witness_TeardownDisablesEveryChannel : (withScript [.teardown]).cfg.WellFormed ∧
    (withScript [.teardown]).Unstopped ∧ (withScript [.teardown]).script = .teardown :: [] ∧
    ∀ ch, (withScript [.teardown]).busy ch = false :=
  ⟨by decide, by decide, rfl, fun ch => by cases ch <;> rfl⟩

/-- A clock edge that moves the counter, the prescaler phase or the waveform phase. -/
theorem witness_OnlyEdgesMoveTheTimer : ((nextOf (step ((ticking 0x4A 0 3 2 1 0 true).present (.edge .c0)))).map fun t =>
    ((t.chan .c0).counter, (t.chan .c0).active)) = some (2, false) ∧
    ((nextOf (step ((ticking 0x4A 3 3 2 1 0 true).present (.edge .c0)))).map fun t => (t.chan .c0).psCnt) = some 1 := by
  refine ⟨?_, ?_⟩ <;> decide

/-- The clock gate opened by `C_CLK` and by `E_CLK`, and closed by `D_CLKOFF`. -/
theorem witness_OnlySequencersGateTheClock :
    ((nextOf (step (busyAt .c0 .cClk))).map fun t => (t.chan .c0).clkOn) = some true ∧
    ((nextOf (step (busyAt .c0 .eClk))).map fun t => (t.chan .c0).clkOn) = some true ∧
    ((nextOf (step ((ticking 0x6B 0 3 2 1 0 true).goto .c0 .dClkoff))).map fun t => (t.chan .c0).clkOn) =
      some false := by
  refine ⟨?_, ?_, ?_⟩ <;> decide

/-- The polarity, the last-applied record and the phase written. -/
theorem witness_OnlyCompletionsWriteTheRecord :
    ((nextOf (step (commanded .setPolarity 0 State.reset))).map fun t => (t.chan .c0).pol) = some .inverted ∧
    ((nextOf (step (configuring 10))).map fun t => ((t.chan .c0).last.isSome, (t.chan .c0).phase)) =
      some (true, .configured) ∧
    ((nextOf (step (busyAt .c0 .eWr))).map fun t => (t.chan .c0).phase) = some .enabled ∧
    ((nextOf (step ((commanded .enable 3 State.reset).goto .c0 .dClkoff))).map fun t => (t.chan .c0).phase) =
      some .disabled := by
  refine ⟨?_, ?_, ?_, ?_⟩ <;> decide

/-- An operation of channel 0, and two states that agree on channel 0 and differ elsewhere. -/
theorem witness_ChannelsAreIsolated : OnChannel (.edge .c0) .c0 ∧ (nextOf (exec (.edge .c0) State.reset)).isSome = true ∧
    State.reset.cfg = (busyAt .c1 .eRd).cfg ∧ State.reset.chan .c0 = (busyAt .c1 .eRd).chan .c0 ∧
    State.reset.clkFail.get .c0 = (busyAt .c1 .eRd).clkFail.get .c0 ∧
    State.reset.chan .c1 ≠ (busyAt .c1 .eRd).chan .c1 :=
  ⟨by simp [OnChannel], by decide, rfl, rfl, rfl, by decide⟩

theorem witness_ChannelsCommute : Chan.c0 ≠ Chan.c2 := by decide

/-- A CONFIGURE in progress meets the invariant and steps. -/
theorem witness_InvariantIsKept : (configuring 10).Inv ∧ (nextOf (step (configuring 10))).isSome = true :=
  ⟨witness_ConfigureResultUnderInterleaving.1, by decide⟩

theorem witness_InvariantAtReset : otherConfig.WellFormed := by decide

/-- The lifecycle invariant holds of the reset state with an ENABLE at its ports, which is no raw write. -/
theorem witness_LifecycleIsKept : (withScript [.command 0x04#8 0 0 0]).Inv ∧
    (withScript [.command 0x04#8 0 0 0]).Lifecycle ∧ (withScript [.command 0x04#8 0 0 0]).NoRawWrite ∧
    (nextOf (step (withScript [.command 0x04#8 0 0 0]))).isSome = true := by
  refine ⟨⟨by decide, fun ch => reset_inv.chanOk ch⟩, fun ch => ?_, fun k ch v h => ?_, by decide⟩
  · show LifecycleInv Config.default ((State.resetWith Config.default).chan ch)
    rw [reset_chan]
    constructor
    case modeKept => exact fun a h => by cases h
    case intervalKept => exact fun a h => by cases h
    case matchKept => exact fun a h => by cases h
    all_goals decide
  · have hf : fetch (withScript [.command 0x04#8 0 0 0]) = some (.instr (.enable .c0)) := by decide
    rw [hf] at h
    rcases k with r | d
    · cases r <;> cases ch <;> cases h
    · cases d <;> cases ch <;> cases h

theorem witness_LifecycleAtResetAndIdle : Config.default.WellFormed ∧
    (withScript [.command 0x04#8 0 0 0]).Lifecycle ∧ (withScript [.command 0x04#8 0 0 0]).busy .c0 = false :=
  ⟨by decide, witness_LifecycleIsKept.2.1, by decide⟩

end Sys2Proof.Tests
end

/-! PROOFS. The statements of 10_state: the sticky flags of a stop (R28) and the reset table (R30). -/

namespace Sys2Proof.Machine

/-! ## What a step leaves, by its outcome -/

theorem advance_of_next {s t : State} (h : step s = .next t) : advance s = t := by
  rw [advance, h, State.afterOutcome]

theorem advance_of_fault {s : State} {r : Fault} (h : step s = .fault r) :
    advance s = { s with faulted := true } := by
  rw [advance, h, State.afterOutcome]

theorem advance_of_refused {s : State} {r : Refusal} (h : step s = .refused r) :
    advance s = { s with refused := true } := by
  rw [advance, h, State.afterOutcome]

/-- No claim passes through a stop (00_scope R5), and no move sets a flag. -/
theorem unstopped_of_step_next {s t : State} (h : step s = .next t) : s.Unstopped ∧ t.Unstopped := by
  obtain ⟨⟨hf, hr⟩, hs⟩ := step_cases h
  obtain ⟨-, hf', hr'⟩ := hs.fixed
  exact ⟨⟨hf, hr⟩, hf'.trans hf, hr'.trans hr⟩

/-- A step that stops keeps the flag it does not set. -/
theorem advance_keeps_faulted {s : State} (hs : s.faulted = true) : (advance s).faulted = true := by
  cases h : step s with
  | next t =>
    obtain ⟨⟨hf, -⟩, -⟩ := unstopped_of_step_next h
    exact absurd hs (by simp [hf])
  | fault r => rw [advance_of_fault h]
  | refused r => rw [advance_of_refused h]; exact hs

theorem advance_keeps_refused {s : State} (hs : s.refused = true) : (advance s).refused = true := by
  cases h : step s with
  | next t =>
    obtain ⟨⟨-, hr⟩, -⟩ := unstopped_of_step_next h
    exact absurd hs (by simp [hr])
  | fault r => rw [advance_of_fault h]; exact hs
  | refused r => rw [advance_of_refused h]

/-- Settles O10: a stop sets its flag, and a flagged state can only stop again, which clears neither flag. -/
theorem stopFlagsAreSticky : Obligations.StopFlagsAreSticky := by
  unfold Obligations.StopFlagsAreSticky
  refine ⟨?_, ?_, fun s => advance_keeps_faulted, fun s => advance_keeps_refused, fun s t => unstopped_of_step_next⟩
  · rintro s ⟨r, h⟩
    rw [advance_of_fault h]
  · rintro s ⟨r, h⟩
    rw [advance_of_refused h]

/-! ## Reset -/

/-- Every channel of the reset machine is the reset channel. -/
@[simp] theorem State.chan_resetWith (cfg : Config) (ch : Chan) : (State.resetWith cfg).chan ch = Channel.reset cfg :=
  PerChan.get_const _ ch

/-- Every sequencer of the reset machine is the reset sequencer. -/
@[simp] theorem State.seq_resetWith (cfg : Config) (ch : Chan) : (State.resetWith cfg).seq ch = Seq.reset :=
  congrArg Channel.seq (State.chan_resetWith cfg ch)

/-- `CNT_CTRL` after reset is the two masks `DIS_M` and `WAVE_DIS_M` together. -/
theorem Channel.reset_cntCtrl (cfg : Config) :
    (Channel.reset cfg).cntCtrl = BitVec.twoPow 32 cfg.cnt.dis ||| BitVec.twoPow 32 cfg.cnt.waveDis := by
  simp [Channel.reset, setBit, bitMask]

/-- Settles O59: `CNT_CTRL` is the one value computed from the layout; the other rows of the table stand in the reset
channel, sequencer and machine as they are. -/
theorem resetValues : Obligations.ResetValues := by
  unfold Obligations.ResetValues
  intro cfg ch
  rw [State.chan_resetWith, State.seq_resetWith, Channel.reset_cntCtrl]
  exact ⟨rfl, rfl, rfl, rfl, rfl, rfl, rfl, rfl, rfl, rfl, rfl, rfl, rfl, rfl, rfl, rfl, rfl, rfl⟩

end Sys2Proof.Machine

/-! PROOFS. The statement of 30_encoding on the address formula and its inverse (R60). -/

namespace Sys2Proof

/-! ## The offsets of registers -/

/-- The division that inverts the formula: `w = off / 4` is `3 * k + ch` with `ch < 3` (R60). -/
theorem Config.kindNum_and_chan_of_off (c : Config) (k : Kind) (ch : Chan) :
    c.kindNum k = c.off k ch / 4 / 3 ∧ ch.toNat = c.off k ch / 4 % 3 := by
  have := ch.toNat_lt
  unfold Config.off
  omega

theorem Config.off_aligned_and_inRegion {c : Config} (h : c.KindsOk) (k : Kind) (ch : Chan) :
    c.off k ch % 4 = 0 ∧ c.off k ch < regionBytes := by
  have := c.kindNum_lt h k
  have := ch.toNat_lt
  unfold Config.off regionBytes
  omega

/-- The region has no holes: the table of 11 kinds has an entry for the kind number of every aligned offset in it. -/
theorem Config.exists_off_eq {c : Config} (h : c.KindsOk) {off : Nat} (ha : off % 4 = 0) (hr : off < regionBytes) :
    ∃ k ch, off = c.off k ch := by
  have hn : off / 4 / 3 < c.kindOf.length := by
    rw [h.1]
    unfold regionBytes at hr
    omega
  have hk := Config.kindNum_of_kindOf h (List.getElem?_eq_getElem hn)
  obtain ⟨ch, hch⟩ := Chan.ofNat?_mod (off / 4)
  have hc := Chan.toNat_of_ofNat? hch
  refine ⟨c.kindOf[off / 4 / 3], ch, ?_⟩
  unfold Config.off
  omega

/-! ## The register at an offset -/

theorem Config.locate_eq_some_iff {c : Config} (h : c.KindsOk) (off : Nat) (k : Kind) (ch : Chan) :
    c.locate off = some (k, ch) ↔ off = c.off k ch :=
  ⟨c.eq_off_of_locate h, fun e => e ▸ c.locate_off h k ch⟩

theorem Config.locate_isSome_iff {c : Config} (h : c.KindsOk) (off : Nat) :
    (c.locate off).isSome = true ↔ off % 4 = 0 ∧ off < regionBytes := by
  constructor
  · intro hs
    obtain ⟨⟨k, ch⟩, hl⟩ := Option.isSome_iff_exists.mp hs
    rw [c.eq_off_of_locate h hl]
    exact c.off_aligned_and_inRegion h k ch
  · rintro ⟨ha, hr⟩
    obtain ⟨k, ch, rfl⟩ := c.exists_off_eq h ha hr
    rw [c.locate_off h k ch, Option.isSome_some]

/-- Settles O3: the registers' offsets are exactly the aligned offsets of the region, and `locate` inverts the formula on
them. -/
theorem offsetNamesRegister : Obligations.OffsetNamesRegister := by
  unfold Obligations.OffsetNamesRegister
  intro cfg off h
  refine ⟨cfg.locate_isSome_iff h off, cfg.locate_eq_some_iff h off, fun k ch => rfl, fun k ch hl => ?_⟩
  rw [cfg.eq_off_of_locate h hl]
  exact cfg.kindNum_and_chan_of_off k ch

end Sys2Proof

/-! PROOFS. The statements of 40_register_access on the raw accesses of `CLK_CTRL`, `CNT_CTRL`, `INTERVAL` and `MATCH1` to
`MATCH3` (R81 to R84, R87 to R94). -/

namespace Sys2Proof.Machine

/-! ## An access on an idle channel -/

/-- A raw read on an idle channel is made at once, and leaves nothing but its event (R80). -/
theorem exec_ofRead_of_idle {s : State} {ch : Chan} (h : s.busy ch = false) (r : Reg) :
    exec (Instr.ofRead (.reg r) ch) s = .next (s.record (.acc .R ((s.chan ch).readReg r) ch r)).consume := by
  rw [exec_ofRead, rawRead, h, if_neg Bool.false_ne_true, busRead]

/-- A raw write on an idle channel is made at once: the masked store, and the event with the value presented (R80). -/
theorem exec_ofWrite_of_idle {s : State} {ch : Chan} (h : s.busy ch = false) (r : Reg) (v : Word) :
    exec (Instr.ofWrite (.reg r) ch v) s =
      .next ((s.setChan ch ((s.chan ch).writeReg s.cfg r v)).record (.acc .W v ch r)).consume := by
  rw [exec_ofWrite, rawWrite, h, if_neg Bool.false_ne_true, busWrite]

/-! ## The control registers -/

/-- An unimplemented bit of a masked register reads as 0. -/
theorem getLsbD_eq_false_of_masked {w m : Word} {i : Nat} (h : w &&& ~~~m = 0) (hm : m.getLsbD i = false) :
    w.getLsbD i = false := by
  by_contra hw
  have hi : testBit m i = true := (masked_iff w m).mp h i (Bool.eq_true_of_not_eq_false hw)
  exact Bool.false_ne_true (hm.symm.trans hi)

/-- Settles O13: the two accesses on an idle channel; the stored value is masked by the channel's invariant. -/
theorem accessClkCtrl : Obligations.AccessClkCtrl := by
  unfold Obligations.AccessClkCtrl
  exact fun s ch v h => ⟨exec_ofRead_of_idle h .clkCtrl,
    fun hs i => getLsbD_eq_false_of_masked (hs.chanOk ch).clkMasked, exec_ofWrite_of_idle h .clkCtrl v⟩

/-- Settles O14: as for `CLK_CTRL`; the store treats the reset request like every other implemented bit. -/
theorem accessCntCtrl : Obligations.AccessCntCtrl := by
  unfold Obligations.AccessCntCtrl
  exact fun s ch v h => ⟨exec_ofRead_of_idle h .cntCtrl,
    fun hs i => getLsbD_eq_false_of_masked (hs.chanOk ch).cntMasked, exec_ofWrite_of_idle h .cntCtrl v⟩

/-! ## The 16-bit registers -/

/-- Bits 15:0 of a word, as the statements write the stored value, are the word cut to 16 bits, as `writeReg` stores it. -/
theorem extractLsb'_half_eq_setWidth (v : Word) : v.extractLsb' 0 16 = v.setWidth 16 :=
  (BitVec.setWidth_eq_extractLsb' (by decide)).symm

/-- Settles O16: the two accesses on an idle channel; the write stores at once and leaves the live counter alone. -/
theorem accessInterval : Obligations.AccessInterval := by
  unfold Obligations.AccessInterval
  intro s ch v h
  rw [extractLsb'_half_eq_setWidth]
  exact ⟨exec_ofRead_of_idle h .interval, exec_ofWrite_of_idle h .interval v⟩

/-- Settles O17: the write is the store and its event, so no match event can come of it. -/
theorem accessMatch1 : Obligations.AccessMatch1 := by
  unfold Obligations.AccessMatch1
  intro s ch v h
  rw [extractLsb'_half_eq_setWidth]
  exact ⟨exec_ofRead_of_idle h .match1, exec_ofWrite_of_idle h .match1 v⟩

/-- Settles O18: the accesses of either register are those of `MATCH1`, each on a register of its own. -/
theorem accessMatch2And3 : Obligations.AccessMatch2And3 := by
  unfold Obligations.AccessMatch2And3
  intro s ch v h
  rw [extractLsb'_half_eq_setWidth]
  exact ⟨exec_ofRead_of_idle h .match2, exec_ofWrite_of_idle h .match2 v,
    exec_ofRead_of_idle h .match3, exec_ofWrite_of_idle h .match3 v⟩

end Sys2Proof.Machine

/-! PROOFS. The statements of 41_timer_core on a clock edge of a channel whose clock runs (R112 to R116) and on the output
pin (R117). -/

namespace Sys2Proof.Machine

/-! ## EDGE, by what the timer channel does -/

/-- An edge that reaches the channel stores what the timer channel does there and appends its event (R110). -/
theorem exec_edge_of_clockEdge_some {s : State} {ch : Chan} {c : Channel} (hon : (s.chan ch).clkOn = true)
    (hc : (s.chan ch).clockEdge s.cfg = some c) :
    exec (.edge ch) s = .next ((s.setChan ch c).record (.edge ch)).consume := by
  simp only [exec, execEdge, hon, hc, if_true]

/-- An edge that finds a counting mode that is not admitted is refused (R114). -/
theorem exec_edge_of_clockEdge_none {s : State} {ch : Chan} (hon : (s.chan ch).clkOn = true)
    (hc : (s.chan ch).clockEdge s.cfg = none) :
    exec (.edge ch) s = .refused (.countingModeNotAdmitted ch) := by
  simp only [exec, execEdge, hon, hc, if_true]

/-! ## What the timer channel does with no reset pending -/

section
variable {cfg : Config} {c : Channel}

/-- With counting disabled the channel is left as it is (R112). -/
theorem Channel.clockEdge_of_dis (hr : rst cfg c.cntCtrl = false) (hd : dis cfg c.cntCtrl = true) :
    c.clockEdge cfg = some c := by
  rw [Channel.clockEdge, hr, hd, if_neg Bool.false_ne_true, if_pos rfl]

/-- With counting enabled the counting mode decides between a counting edge and a refusal (R113, R114). -/
theorem Channel.clockEdge_of_enabled (hr : rst cfg c.cntCtrl = false) (hd : dis cfg c.cntCtrl = false) :
    c.clockEdge cfg = if admittedMode cfg c.cntCtrl then some (c.countEdge cfg) else none := by
  rw [Channel.clockEdge, hr, hd, if_neg Bool.false_ne_true, if_neg Bool.false_ne_true]

/-- Below the divisor only the prescaler phase moves (R113). -/
theorem Channel.countEdge_of_lt (h : c.psCnt.toNat + 1 < divisor cfg c.clkCtrl) :
    c.countEdge cfg = { c with psCnt := c.psCnt + 1 } := by
  have ht : prescalerTick cfg c.clkCtrl c.psCnt = (false, c.psCnt + 1) := if_neg (Nat.not_le.mpr h)
  rw [Channel.countEdge, ht]
  rfl

/-- At the divisor the prescaler phase returns to 0 and the edge is a count tick (R113, R115). -/
theorem Channel.countEdge_of_ge (h : c.psCnt.toNat + 1 ≥ divisor cfg c.clkCtrl) :
    c.countEdge cfg = Channel.countTick { c with psCnt := 0 } cfg := by
  have ht : prescalerTick cfg c.clkCtrl c.psCnt = (true, 0) := if_pos h
  rw [Channel.countEdge, ht]
  rfl

end

theorem admittedMode_eq_false_iff (cfg : Config) (w : Word) :
    admittedMode cfg w = false ↔ dec cfg w = true ∨ int cfg w = false := by
  rw [admittedMode, Bool.and_eq_false_iff, Bool.not_eq_false', or_comm]

theorem admittedMode_eq_true_iff (cfg : Config) (w : Word) :
    admittedMode cfg w = true ↔ int cfg w = true ∧ dec cfg w = false := by
  rw [admittedMode, Bool.and_eq_true, Bool.not_eq_true']

/-! ## The pure functions as the statements write them -/

/-- The prescale code is the low four bits of the shifted register (R113). -/
theorem divisor_eq_ite (cfg : Config) (w : Word) :
    divisor cfg w = if w.getLsbD cfg.clk.psEn = true then 2 ^ ((w >>> cfg.clk.psShift).toNat % 16 + 1) else 1 := by
  rw [divisor, psV_eq_mod, psEn, testBit]

theorem counterWraps_eq_decide (counter interval : Half) :
    counterWraps counter interval = decide (counter = interval ∨ counter = 65535#16) := by
  rw [counterWraps, Bool.decide_or, beq_eq_decide, beq_eq_decide]

/-- The match event wins over the start of a period (R116; decision D13). -/
theorem phaseUpdate_eq_ite (matchEnabled : Bool) (match1 counter' : Half) (start active : Bool) :
    phaseUpdate matchEnabled match1 counter' start active =
      if matchEnabled = true ∧ counter' = match1 then false else if start = true then true else active := by
  simp only [phaseUpdate, Bool.and_eq_true, beq_iff_eq]

/-! ## The statements -/

/-- Settles O24: the timer channel answers itself, so the channel is stored back unchanged. -/
theorem edgeWithCountingDisabled : Obligations.EdgeWithCountingDisabled := by
  unfold Obligations.EdgeWithCountingDisabled
  intro s ch hon hr hd
  rw [exec_edge_of_clockEdge_some hon (Channel.clockEdge_of_dis hr hd), State.setChan_chan]
  rfl

/-- Settles O25: `DEC = 1` or `INT = 0` is the mode that is not admitted. -/
theorem edgeInOtherModeRefused : Obligations.EdgeInOtherModeRefused := by
  unfold Obligations.EdgeInOtherModeRefused
  intro s ch hon hr hd hmode
  have hm : admittedMode s.cfg (s.chan ch).cntCtrl = false := (admittedMode_eq_false_iff _ _).mpr hmode
  apply exec_edge_of_clockEdge_none hon
  rw [Channel.clockEdge_of_enabled hr hd, hm, if_neg Bool.false_ne_true]

/-- Settles O26: in the admitted mode the edge stores the counting edge of the channel, which is a step of the prescaler
below the divisor and a count tick at it. -/
theorem edgeCounts : Obligations.EdgeCounts := by
  unfold Obligations.EdgeCounts
  intro s ch div hon hr hd hint hdec hdiv
  rw [← divisor_eq_ite] at hdiv
  subst hdiv
  have hm : admittedMode s.cfg (s.chan ch).cntCtrl = true := (admittedMode_eq_true_iff _ _).mpr ⟨hint, hdec⟩
  have hc : (s.chan ch).clockEdge s.cfg = some ((s.chan ch).countEdge s.cfg) := by
    rw [Channel.clockEdge_of_enabled hr hd, hm, if_pos rfl]
  rw [exec_edge_of_clockEdge_some hon hc]
  constructor
  · intro hlt
    rw [Channel.countEdge_of_lt hlt]
    rfl
  · intro hge
    rw [Channel.countEdge_of_ge hge]
    exact ⟨_, _, _, counterWraps_eq_decide _ _, rfl, phaseUpdate_eq_ite _ _ _ _ _, rfl⟩

/-- Settles O27: the statement is the mux at the channel's control register and phase, with the bits by position. -/
theorem outputPin : Obligations.OutputPin := by
  unfold Obligations.OutputPin
  intro s ch
  rw [State.waveOut, waveMux, waveDis, wavePol, testBit, testBit]

end Sys2Proof.Machine

/-! PROOFS. The statements of 42_configure on CONFIGURE's arithmetic (R131, R132, R134), the values it writes to the two
control registers (R133, R135) and its micro-steps (R136 to R146). -/

namespace Sys2Proof.Machine

/-! ## Nanoseconds to ticks (R131) -/

theorem mul_lt_of_operands {ns rate : Nat} (hn : ns < 2 ^ 31) (hr : rate < 2 ^ 32) : ns * rate < 2 ^ 63 :=
  calc ns * rate < 2 ^ 31 * 2 ^ 32 := Nat.mul_lt_mul'' hn hr
    _ = 2 ^ 63 := by norm_num

theorem ticks_lt_of_operands {ns rate : Nat} (hn : ns < 2 ^ 31) (hr : rate < 2 ^ 32) : ticks ns rate < 2 ^ 34 := by
  have hp := mul_lt_of_operands hn hr
  unfold ticks
  omega

/-- Settles O29: the product fits 63 bits, so its quotient fits 34 and a 64-bit register does not cut it. -/
theorem ticksAreExact : Obligations.TicksAreExact := by
  unfold Obligations.TicksAreExact
  intro ns rate hn hr
  have ht := ticks_lt_of_operands hn hr
  exact ⟨rfl, mul_lt_of_operands hn hr, ht, Nat.mod_eq_of_lt (ht.trans (by norm_num))⟩

/-! ## The prescaler exponent (R132) and the thresholds (R134) -/

theorem bitlen_le_iff (p n : Nat) : bitlen p ≤ n ↔ p < 2 ^ n := by
  by_cases hp : p = 0
  · simp [hp, bitlen]
  · rw [bitlen, if_neg hp, Nat.succ_le_iff, Nat.log2_lt hp]

/-- The exponent is the least shift that brings a number into 16 bits: the shifts that do are those from it on. -/
theorem exponent_le_iff (p e : Nat) : exponent p ≤ e ↔ p >>> e ≤ 65535 :=
  calc exponent p ≤ e ↔ bitlen p ≤ 16 + e := by rw [exponent, Nat.sub_le_iff_le_add']
    _ ↔ p < 2 ^ 16 * 2 ^ e := by rw [bitlen_le_iff, pow_add]
    _ ↔ p >>> e < 2 ^ 16 := by rw [Nat.shiftRight_eq_div_pow, Nat.div_lt_iff_lt_mul (by positivity)]
    _ ↔ p >>> e ≤ 65535 := Nat.lt_succ_iff

theorem shiftRight_exponent_le (p : Nat) : p >>> exponent p ≤ 65535 := (exponent_le_iff p _).mp le_rfl

/-- Settles O30: `exponent_le_iff` at the exponent, at the shift before it, and at 16. -/
theorem exponentIsLeast : Obligations.ExponentIsLeast := by
  unfold Obligations.ExponentIsLeast
  refine fun p => ⟨(Nat.zero_max _).symm, fun hp => ⟨pow_le_of_bitlen hp, lt_pow_bitlen hp, bitlen_eq_log hp⟩, rfl,
    shiftRight_exponent_le p, fun he => ?_, fun hp => ?_⟩
  · have hlt : ¬ exponent p ≤ exponent p - 1 := by omega
    exact not_le.mp (mt (exponent_le_iff p _).mpr hlt)
  · rw [exponent_le_iff, Nat.shiftRight_eq_div_pow]
    omega

theorem threshold_toNat (clocks e : Nat) : (threshold clocks e).toNat = clocks >>> e % 65536 := by
  rw [threshold, BitVec.toNat_ofNat, Nat.and_two_pow_sub_one_eq_mod _ 16, Nat.mod_mod]

/-- Settles O32: the mask is a reduction modulo 2^16, and the interval is below 2^16 already. -/
theorem thresholdValues : Obligations.ThresholdValues := by
  unfold Obligations.ThresholdValues
  refine ⟨fun p => ?_, threshold_toNat⟩
  rw [threshold_toNat, Nat.mod_eq_of_lt (Nat.lt_succ_of_le (shiftRight_exponent_le p))]

/-! ## The clock-control value (R133) -/

section
variable {cfg : Config} (h : cfg.ClkOk) (y : Word) (e : Nat) (ext : Bool)
include h

theorem testBit_clkval_cSrc : testBit (clkval cfg y e ext) cfg.clk.cSrc = ext :=
  testBit_putBit_self _ ext (clk_lt h).2.1

/-- Off the clock-source bit: `PS_EN` and the field are cleared, then set to the enable and the code when `e` is not 0. -/
theorem testBit_clkval_of_ne_cSrc {i : Nat} (hi : i ≠ cfg.clk.cSrc) :
    testBit (clkval cfg y e ext) i =
      (testBit y i && !decide (cfg.clk.psEn = i) && !decide (cfg.clk.psShift ≤ i ∧ i < cfg.clk.psShift + 4) ||
        decide (e ≠ 0) && (decide (cfg.clk.psEn = i) || testBit (BitVec.ofNat 32 (e - 1) <<< cfg.clk.psShift) i)) := by
  by_cases h32 : i < 32
  · rw [clkval, testBit_putBit_ne _ _ hi.symm]
    have hen := (clk_lt h).1
    by_cases he : e = 0 <;>
      simp [he, testBit_not, testBit_bitMask, testBit_psVMask, h32, hen, Bool.and_assoc, Bool.or_assoc]
  · have hne : cfg.clk.psEn ≠ i := fun hp => h32 (hp ▸ (clk_lt h).1)
    simp [testBit_of_ge _ (not_lt.mp h32), hne]

theorem psEn_clkval (he : e ≤ 16) : psEn cfg (clkval cfg y e ext) = decide (e ≠ 0) := by
  have ⟨hsrc, hfield, _⟩ := h
  rw [psEn, testBit_clkval_of_ne_cSrc h y e ext hsrc, testBit_code_outside cfg (by omega) hfield]
  simp

/-- The four bits of the field are those of the code `e - 1`, which for `e = 0` is 0. -/
theorem psV_clkval (he : e ≤ 16) : psV cfg (clkval cfg y e ext) = e - 1 := by
  have ⟨_, hen, hsrc, _⟩ := h
  rw [← psV_code (c := cfg) (n := e - 1) (by omega) (clk_lt h).2.2]
  refine psV_congr fun i hlo hhi => ?_
  have hi : i ≠ cfg.clk.cSrc ∧ cfg.clk.psEn ≠ i := by omega
  rw [testBit_clkval_of_ne_cSrc h y e ext hi.1]
  by_cases h0 : e = 0 <;> simp [h0, hi.2, hlo, hhi, testBit]

theorem testBit_clkval_of_other (he : e ≤ 16) {i : Nat} (hen : i ≠ cfg.clk.psEn) (hsrc : i ≠ cfg.clk.cSrc)
    (hfield : i < cfg.clk.psShift ∨ cfg.clk.psShift + 4 ≤ i) : testBit (clkval cfg y e ext) i = testBit y i := by
  have hout : ¬ (cfg.clk.psShift ≤ i ∧ i < cfg.clk.psShift + 4) := by omega
  rw [testBit_clkval_of_ne_cSrc h y e ext hsrc, testBit_code_outside cfg (by omega) hfield]
  simp [hen.symm, hout]

end

/-- Settles O31, field by field. -/
theorem clockControlValue : Obligations.ClockControlValue := by
  unfold Obligations.ClockControlValue
  intro cfg y e ext hw he
  obtain ⟨-, -, hclk, -⟩ := hw
  exact ⟨psEn_clkval hclk y e ext he, psV_clkval hclk y e ext he, testBit_clkval_cSrc hclk y e ext,
    fun i => testBit_clkval_of_other hclk y e ext he⟩

/-! ## The counter-control value (R135) -/

section
variable {cfg : Config} (h : cfg.CntOk) (x0 : Word) (p : Polarity)
include h

theorem wavePol_cntval : wavePol cfg (cntval cfg x0 p) = decide (p = .normal) := by
  rw [wavePol, cntval, testBit_putBit_self _ _ (cnt_lt h (by simp [CntLayout.bits])), beq_eq_decide]

/-- Off the polarity bit: `DEC` is cleared, then the three bits are set. -/
theorem testBit_cntval_of_ne_wavePol {i : Nat} (hi : i ≠ cfg.cnt.wavePol) :
    testBit (cntval cfg x0 p) i =
      (testBit x0 i && !decide (cfg.cnt.dec = i) || decide (cfg.cnt.int = i) || decide (cfg.cnt.rst = i) ||
        decide (cfg.cnt.matchEn = i)) := by
  have hint : cfg.cnt.int < 32 := cnt_lt h (by simp [CntLayout.bits])
  have hrst : cfg.cnt.rst < 32 := cnt_lt h (by simp [CntLayout.bits])
  have hmatch : cfg.cnt.matchEn < 32 := cnt_lt h (by simp [CntLayout.bits])
  simp [cntval, testBit_putBit_ne _ _ hi.symm, testBit_setBit, testBit_clearBit, hint, hrst, hmatch]

end

/-- Settles O33: the polarity is stored last; each other bit is read off `testBit_cntval_of_ne_wavePol` by the distinctness
of the fields. -/
theorem counterControlValue : Obligations.CounterControlValue := by
  unfold Obligations.CounterControlValue
  intro cfg x0 p hw
  obtain ⟨-, -, -, hcnt⟩ := hw
  have hbit {i : Nat} := testBit_cntval_of_ne_wavePol hcnt x0 p (i := i)
  obtain ⟨-, ⟨hid, -, -, -, hip⟩, ⟨hdm, hdr, -, hdp⟩, ⟨-, -, hmp⟩, ⟨-, hrp⟩, -⟩ := cnt_facts hcnt
  refine ⟨?_, ?_, ?_, ?_, wavePol_cntval hcnt x0 p, fun i hd hi hr hm hp => ?_⟩
  · rw [dec, hbit hdp]
    simp [hid, hdm.symm, hdr.symm]
  · rw [int, hbit hip]
    simp
  · rw [rst, hbit hrp]
    simp
  · rw [matchEn, hbit hmp]
    simp
  · exact (hbit hp).trans (by simp [hd.symm, hi.symm, hr.symm, hm.symm, testBit])

/-! ## The micro-steps (R136 to R146) -/

theorem quiesceVal_eq_or (cfg : Config) (x0 : Word) : quiesceVal cfg x0 = x0 ||| BitVec.twoPow 32 cfg.cnt.dis := by
  rw [quiesceVal, setBit, bitMask]

theorem configuredPhase_eq_ite (p : Phase) : configuredPhase p = if p = .enabled then .enabled else .configured := by
  cases p <;> rfl

/-- A micro-step that is no handshake leaves the environment's answer pending. -/
theorem microStep_of_no_handshake {ch : Chan} {s : State} (hc : (s.chan ch).seq.pc ≠ .cClk)
    (he : (s.chan ch).seq.pc ≠ .eClk) :
    microStep ch s = { s with
      chans := s.chans.set ch ((s.chan ch).micro s.cfg (s.cfg.extClk.get ch) (s.clkFail.get ch))
      trace := s.trace ++ (s.chan ch).microEvents s.cfg (s.cfg.extClk.get ch) (s.clkFail.get ch) ch } := by
  have hf : (s.chan ch).microFail (s.clkFail.get ch) = s.clkFail.get ch := by
    unfold Channel.microFail
    split
    · exact absurd ‹_› hc
    · exact absurd ‹_› he
    · rfl
  rw [microStep_eq, hf, PerChan.set_get]

/-- Settles O39: each clause is the row of `Channel.micro` and `Channel.microEvents` at its micro-state. Only the handshake
of `C_CLK` uses up an answer, and using up a success leaves the pending answers as they are. -/
theorem configureMicroSteps : Obligations.ConfigureMicroSteps := by
  unfold Obligations.ConfigureMicroSteps
  rintro s ch c q rfl rfl
  refine ⟨?checkFails, ?checkPasses, ?clkStarts, ?clkFails, ?rdCnt, ?wrQuiesce, ?calcP, ?rdClk, ?wrClk, ?calcD, ?wrInt,
    ?wrM1, ?wrRestore⟩
  case clkStarts =>
    intro h hf
    have hset : s.clkFail.set ch false = s.clkFail := hf ▸ s.clkFail.set_get ch
    simp [microStep_eq, Channel.micro, Channel.microEvents, Channel.microFail, h, hf, hset]
  case clkFails =>
    intro h hf
    simp [microStep_eq, Channel.micro, Channel.microEvents, Channel.microFail, h, hf, Seq.finish]
  case checkFails =>
    intro h hp
    rw [microStep_of_no_handshake (by simp [h]) (by simp [h])]
    simp only [Channel.micro, Channel.microEvents, h, if_pos hp, Seq.finish]
  case checkPasses =>
    intro h hp
    rw [microStep_of_no_handshake (by simp [h]) (by simp [h])]
    simp only [Channel.micro, Channel.microEvents, h, if_neg (not_lt.mpr hp), List.append_nil]
  all_goals
    intro h
    rw [microStep_of_no_handshake (by simp [h]) (by simp [h])]
    simp [Channel.micro, Channel.microEvents, h, quiesceVal_eq_or, configuredPhase_eq_ite, Seq.finish]

end Sys2Proof.Machine

/-! PROOFS. The statement of 43_lifecycle on the micro-steps of ENABLE, DISABLE and SET_POLARITY (R161 to R163, R165 to
R167, R169). -/

namespace Sys2Proof.Machine

/-! ## The values the two commands write -/

/-- Clearing the two bits one after the other is clearing them with one mask, as R163 writes it. -/
theorem enableVal_eq_or (cfg : Config) (x : Word) :
    enableVal cfg x = (x &&& ~~~(BitVec.twoPow 32 cfg.cnt.dis ||| BitVec.twoPow 32 cfg.cnt.waveDis)) |||
      BitVec.twoPow 32 cfg.cnt.rst := by
  simp only [enableVal, setBit, clearBit, bitMask, BitVec.not_or, BitVec.and_assoc]

theorem disableVal_eq_or (cfg : Config) (x : Word) :
    disableVal cfg x = x ||| BitVec.twoPow 32 cfg.cnt.dis ||| BitVec.twoPow 32 cfg.cnt.waveDis := by
  simp only [disableVal, setBit, bitMask]

/-! ## The micro-steps -/

/-- With no failure pending, a micro-step leaves the pending answers as they are: a handshake uses up a success, and the
next answer is a success again. -/
theorem microStep_of_clkFail_eq_false {ch : Chan} {s : State} (hf : s.clkFail.get ch = false) :
    microStep ch s = { s with
      chans := s.chans.set ch ((s.chan ch).micro s.cfg (s.cfg.extClk.get ch) false)
      trace := s.trace ++ (s.chan ch).microEvents s.cfg (s.cfg.extClk.get ch) false ch } := by
  have hans : (s.chan ch).microFail false = false := by
    unfold Channel.microFail
    split <;> rfl
  have hset : s.clkFail.set ch false = s.clkFail := hf ▸ s.clkFail.set_get ch
  rw [microStep_eq, hf, hans, hset]

/-- Settles O44: each clause is the row of `Channel.micro` and `Channel.microEvents` at its micro-state. Only the handshake
of `E_CLK` asks for an answer; the values of the two writes are the spec's by `enableVal_eq_or` and `disableVal_eq_or`. -/
theorem lifecycleMicroSteps : Obligations.LifecycleMicroSteps := by
  unfold Obligations.LifecycleMicroSteps
  rintro s ch c q rfl rfl
  refine ⟨?clkStarts, ?clkFails, ?rdEnable, ?wrEnable, ?rdDisable, ?wrDisable, ?clkOff, ?setPol⟩
  case clkStarts =>
    intro h hf
    rw [microStep_of_clkFail_eq_false hf]
    simp [Channel.micro, Channel.microEvents, h]
  case clkFails =>
    intro h hf
    simp [microStep_eq, Channel.micro, Channel.microEvents, Channel.microFail, h, hf, Seq.finish]
  case wrEnable =>
    rintro h v rfl
    rw [microStep_of_no_handshake (by simp [h]) (by simp [h]), ← enableVal_eq_or]
    simp only [Channel.micro, Channel.microEvents, h, Seq.finish]
  case wrDisable =>
    rintro h v rfl
    rw [microStep_of_no_handshake (by simp [h]) (by simp [h]), ← disableVal_eq_or]
    simp only [Channel.micro, Channel.microEvents, h]
  all_goals
    intro h
    rw [microStep_of_no_handshake (by simp [h]) (by simp [h])]
    simp only [Channel.micro, Channel.microEvents, h, Seq.finish]

end Sys2Proof.Machine

/-! PROOFS. The statements of 60_exceptions: what raises `InvalidArgument` and `ClockUnavailable`, and what their
failure return leaves unchanged (R181, R182, R185). -/

namespace Sys2Proof.Machine

/-! ## Acceptance -/

/-- A CONFIGURE inside the contract of its operands is latched by an idle channel (43_lifecycle R160). -/
theorem exec_configure_of_contract {s : State} {ch : Chan} {d p r : Word} (hb : s.busy ch = false) (hd : 0 ≤ d.toInt)
    (hr : r ≠ 0) (hp : 0 ≤ p.toInt → ticks p.toNat r.toNat < 2 ^ 32) :
    exec (.configure ch d p r) s = .next (s.setSeq ch { latch (s.seq ch) .configure .normal with
      dutyNs := d, periodNs := p, rateHz := r }).consume := by
  simp [exec, execConfigure, hb, dutyOk_iff.mpr hd, rateOk_iff.mpr hr, periodOk_iff.mpr hp]

/-- An ENABLE is latched by an idle channel (43_lifecycle R160). -/
theorem exec_enable_of_idle {s : State} {ch : Chan} (hb : s.busy ch = false) :
    exec (.enable ch) s = .next (s.setSeq ch (latch (s.seq ch) .enable .normal)).consume := by
  simp [exec, execEnable, accept, hb]

/-! ## The failure return (R185) -/

/-- From a state whose channels and trace differ from those of `s` in one sequencer alone, the failure return differs in
that sequencer and in the one `Done` event of the command it was running. -/
theorem raiseError_frame {s u : State} {ch : Chan} {q : Seq} (hchans : u.chans = (s.setSeq ch q).chans)
    (htrace : u.trace = s.trace) (err : Status) :
    (raiseError ch err u).chans = s.chans.set ch { s.chan ch with seq := (raiseError ch err u).seq ch } ∧
    ((raiseError ch err u).seq ch).pc = .idle ∧ ((raiseError ch err u).seq ch).status = err ∧
    ((raiseError ch err u).seq ch).status.code = err.code ∧
    (raiseError ch err u).trace = s.trace ++ [.done ch q.op err] := by
  have hchan : u.chan ch = { s.chan ch with seq := q } := by
    rw [State.chan, hchans]
    exact s.chan_setSeq_self ch q
  have hseq : (raiseError ch err u).seq ch = { q with status := err, pc := .idle } := by
    simp [raiseError, complete, State.seq, hchan]
  rw [hseq]
  refine ⟨?_, rfl, rfl, rfl, ?_⟩
  · simp [raiseError, complete, State.setSeq, State.seq, hchan, hchans]
  · simp [raiseError, complete, State.seq, hchan, htrace]

/-! ## The micro-steps that can fail (42_configure R136, R137; 43_lifecycle R161) -/

section
variable {s : State} {ch : Chan}

/-- A negative period fails before the clock is asked. -/
theorem microStep_cCheck_of_neg (hpc : (s.seq ch).pc = .cCheck) (hp : (s.seq ch).periodNs.toInt < 0) :
    microStep ch s = raiseError ch .invalidArgument s := by
  simp [microStep, hpc, cCheck, hp]

/-- With the period in order, an accepted CONFIGURE goes on to the handshake. -/
theorem microStep_cCheck_of_nonneg {q : Seq} (hpc : q.pc = .cCheck) (hp : 0 ≤ q.periodNs.toInt) :
    microStep ch (s.setSeq ch q).consume = (s.setSeq ch { q with pc := .cClk }).consume := by
  simp [microStep, hpc, cCheck, not_lt.mpr hp, State.goto, State.setSeq, State.setChan, State.consume, State.chan,
    State.seq]

/-- A handshake that answers failure uses up the answer and fails the command. -/
theorem microStep_handshake_of_clkFail (hpc : (s.seq ch).pc = .cClk ∨ (s.seq ch).pc = .eClk)
    (hf : s.clkFail.get ch = true) :
    microStep ch s = raiseError ch .clockUnavailable { s with clkFail := s.clkFail.set ch false } := by
  rcases hpc with h | h
  · simp [microStep, h, cClk, clkEnable, hf]
  · simp [microStep, h, eClk, clkEnable, hf]

end

/-! ## What raises an error -/

/-- A completion is a success, a negative period at `C_CHECK`, or a failed handshake. -/
theorem done_mem_microEvents {c : Channel} {cfg : Config} {ext fail : Bool} {ch ch' : Chan} {op : Command} {st : Status}
    (h : .done ch' op st ∈ c.microEvents cfg ext fail ch) :
    st = .ok ∨ (st = .invalidArgument ∧ c.seq.pc = .cCheck ∧ c.seq.periodNs.toInt < 0) ∨
    (st = .clockUnavailable ∧ (c.seq.pc = .cClk ∨ c.seq.pc = .eClk) ∧ fail = true) := by
  unfold Channel.microEvents at h
  cases hpc : c.seq.pc <;> simp only [hpc] at h
  case cCheck | cClk | eClk =>
    split at h
    · simp_all
    · simp at h
  all_goals simp_all

/-- The one event of a micro-step is among the events of its channel. -/
theorem mem_microEvents_of_trace_eq {s : State} {ch : Chan} {e : Event} (h : (microStep ch s).trace = s.trace ++ [e]) :
    e ∈ (s.chan ch).microEvents s.cfg (s.cfg.extClk.get ch) (s.clkFail.get ch) ch := by
  rw [microStep_eq] at h
  simp [List.append_cancel_left h]

/-- Settles O37: the acceptance leads to `C_CHECK`, where the period fails. -/
theorem negativePeriodFails : Obligations.NegativePeriodFails := by
  unfold Obligations.NegativePeriodFails
  refine ⟨fun s ch d p r hb hd hr hp =>
      ⟨_, exec_configure_of_contract hb hd hr fun h => absurd h (not_le.mpr hp), ?_⟩,
    fun s ch op h => ?_⟩
  · rw [microStep_cCheck_of_neg (by simp [latch, firstMicroState]) (by simpa using hp)]
    obtain ⟨hchans, hpc, hst, hcode, htrace⟩ := raiseError_frame rfl rfl .invalidArgument
    exact ⟨hchans, hpc, hst, hcode, htrace, rfl⟩
  · obtain h | ⟨-, hpc, hp⟩ | ⟨h, -⟩ := done_mem_microEvents (mem_microEvents_of_trace_eq h)
    · cases h
    · exact ⟨hpc, hp⟩
    · cases h

/-- Settles O38: CONFIGURE passes `C_CHECK` and fails at `C_CLK`; ENABLE fails at `E_CLK`, its first micro-state. -/
theorem clockFailureChangesNothing : Obligations.ClockFailureChangesNothing := by
  unfold Obligations.ClockFailureChangesNothing
  refine ⟨fun s ch d p r hb hd hr hp ht hf => ⟨_, exec_configure_of_contract hb hd hr fun _ => ht, ?_⟩,
    fun s ch hb hf => ⟨_, exec_enable_of_idle hb, ?_⟩, fun s ch op h => ?_⟩
  · rw [microSteps, microSteps, microSteps, microStep_cCheck_of_nonneg rfl hp,
      microStep_handshake_of_clkFail (.inl (by simp)) (by simpa using hf)]
    exact raiseError_frame rfl rfl .clockUnavailable
  · rw [microStep_handshake_of_clkFail (.inr (by simp [latch, firstMicroState])) (by simpa using hf)]
    exact raiseError_frame rfl rfl .clockUnavailable
  · obtain h | ⟨h, -⟩ | ⟨-, hpc, hf⟩ := done_mem_microEvents (mem_microEvents_of_trace_eq h)
    · cases h
    · cases h
    · exact ⟨hpc, hf⟩

end Sys2Proof.Machine

/-! PROOFS. The statements of 30_encoding and 20_memory on the two formats: decoding and encoding agree (R60, R62, R67),
no two registers alias (R40, R41), and words written out bit by bit. -/

namespace Sys2Proof

/-! ## Well-formed parameters, part by part -/

theorem Config.WellFormed.kindsOk {c : Config} (h : c.WellFormed) : c.KindsOk := by
  obtain ⟨-, hk, -, -⟩ := h
  exact hk

theorem Config.WellFormed.clkOk {c : Config} (h : c.WellFormed) : c.ClkOk := by
  obtain ⟨-, -, hclk, -⟩ := h
  exact hclk

theorem Config.WellFormed.cntOk {c : Config} (h : c.WellFormed) : c.CntOk := by
  obtain ⟨-, -, -, hcnt⟩ := h
  exact hcnt

/-! ## Format T -/

/-- A read or a write at a register's offset decodes to that register's row. -/
theorem decodeAccess_transactionWord {c : Config} (h : c.KindsOk) (we : Bool) (k : Kind) (ch : Chan) (data : Word) :
    decodeAccess c .word (transactionWord we (c.off k ch)) data =
      .instr (if we then Instr.ofWrite k ch data else Instr.ofRead k ch) := by
  simp only [decodeAccess, twOffset_transactionWord we (c.off_lt h k ch), c.locate_off h k ch,
    twWrite_transactionWord]

/-- An access that decodes to an instruction is 32 bits wide, at an offset that names the instruction's register. -/
theorem eq_row_of_decodeAccess {c : Config} {width : AccessWidth} {tw : BitVec 9} {data : Word} {i : Instr}
    (h : decodeAccess c width tw data = .instr i) :
    width = .word ∧ ∃ k ch, c.locate (twOffset tw).toNat = some (k, ch) ∧
      i = if twWrite tw then Instr.ofWrite k ch data else Instr.ofRead k ch := by
  unfold decodeAccess at h
  split at h
  · cases h
    exact ⟨rfl, _, _, ‹_›, rfl⟩
  · cases h

theorem Config.locate_eq_none (c : Config) {off : Nat} (h : off % 4 ≠ 0 ∨ off ≥ regionBytes) : c.locate off = none :=
  if_neg (by omega)

/-- An access that is not 32 bits wide, or at an offset that names no register, is a bad access. -/
theorem decodeAccess_eq_badAccess {c : Config} {width : AccessWidth} {tw : BitVec 9}
    (h : width ≠ .word ∨ (twOffset tw).toNat % 4 ≠ 0 ∨ (twOffset tw).toNat ≥ regionBytes) (data : Word) :
    decodeAccess c width tw data = .badAccess (twOffset tw) := by
  rcases h with h | h
  · cases width
    case word => exact absurd rfl h
    all_goals rfl
  · simp only [decodeAccess, c.locate_eq_none h]

/-- Decoding an access looks at the kind table only. -/
theorem decodeAccess_congr {c c' : Config} (h : c.kindOf = c'.kindOf) (width : AccessWidth) (tw : BitVec 9)
    (data : Word) : decodeAccess c width tw data = decodeAccess c' width tw data := by
  simp only [decodeAccess, Config.locate, h]

/-! ## Format C -/

/-- The instruction of a command, a channel and what stands at the ports; the polarity argument is SET_POLARITY's and
the operands are CONFIGURE's (30_encoding R67, R68). -/
def Instr.ofCommand (op : Command) (ch : Chan) (p : Polarity) (dutyNs periodNs rateHz : Word) : Instr :=
  match op with
  | .configure => .configure ch dutyNs periodNs rateHz
  | .enable => .enable ch
  | .disable => .disable ch
  | .setPolarity => .setPolarity ch p

/-- A command word decodes by its three fields when bits 7:5 are 0 and `p` is 0 or read. -/
theorem decodeCommand_of_fields {cw : Byte} {ch : Chan} (hz : cwZero cw = 0)
    (hp : cwPolarity cw = false ∨ cwOp cw = .setPolarity) (hch : cwChan cw = some ch) (d q r : Word) :
    decodeCommand cw d q r =
      .instr (Instr.ofCommand (cwOp cw) ch (Polarity.ofBit (cwPolarity cw)) d q r) := by
  rw [decodeCommand, if_pos ⟨hz, hp⟩, hch]
  cases cwOp cw <;> rfl

/-- Every other command word is reserved. -/
theorem decodeCommand_of_reserved {cw : Byte}
    (h : cwChan cw = none ∨ cwZero cw ≠ 0 ∨ (cwPolarity cw = true ∧ cwOp cw ≠ .setPolarity)) (d q r : Word) :
    decodeCommand cw d q r = .reservedCommand cw := by
  unfold decodeCommand
  split
  · rename_i hok
    obtain ⟨hz, hread⟩ := hok
    have hch : cwChan cw = none := by
      rcases h with h | h | ⟨hp, ho⟩
      · exact h
      · exact absurd hz h
      · simp [hp, ho] at hread
    rw [hch]
  · rfl

/-- A command word that decodes to an instruction is not reserved. -/
theorem fields_of_decodeCommand {cw : Byte} {d q r : Word} {i : Instr} (h : decodeCommand cw d q r = .instr i) :
    cwZero cw = 0 ∧ (cwPolarity cw = false ∨ cwOp cw = .setPolarity) ∧ ∃ ch, cwChan cw = some ch := by
  unfold decodeCommand at h
  split at h
  · rename_i hok
    obtain ⟨hz, hp⟩ := hok
    refine ⟨hz, hp, ?_⟩
    cases hch : cwChan cw with
    | none =>
      rw [hch] at h
      cases h
    | some ch => exact ⟨ch, rfl⟩
  · cases h

theorem Polarity.bit_ofBit (b : Bool) : (Polarity.ofBit b).bit = b := by cases b <;> rfl

theorem Polarity.ofBit_bit (p : Polarity) : Polarity.ofBit p.bit = p := by cases p <;> rfl

/-- The encoder's command word decodes to its command; `p` is 1 in SET_POLARITY only. -/
theorem decodeCommand_commandWord {op : Command} {p : Polarity} (hp : p = .normal ∨ op = .setPolarity) (ch : Chan)
    (d q r : Word) : decodeCommand (commandWord p.bit op ch) d q r = .instr (Instr.ofCommand op ch p d q r) := by
  obtain ⟨hzero, hpol, hop, hch⟩ := commandWord_read p op ch
  have hread : p.bit = false ∨ op = .setPolarity := hp.imp_left (congrArg Polarity.bit)
  rw [decodeCommand_of_fields hzero (by rwa [hpol, hop]) hch, hop, hpol, Polarity.ofBit_bit]

/-- The item of a command: its word, with CONFIGURE's operands at the ports. -/
theorem encode_ofCommand (c : Config) {op : Command} {p : Polarity} (hp : p = .normal ∨ op = .setPolarity) (ch : Chan)
    (d q r : Word) : ∃ d' q' r',
      encode c (Instr.ofCommand op ch p d q r) = .command (commandWord p.bit op ch) d' q' r' ∧
      (op = .configure → d' = d ∧ q' = q ∧ r' = r) := by
  cases op
  case setPolarity => exact ⟨0, 0, 0, rfl, fun h => by cases h⟩
  all_goals
    obtain rfl : p = .normal := hp.resolve_right (by decide)
    exact ⟨_, _, _, rfl, by simp⟩

/-! ## The statements -/

/-- Settles O1: an access goes back by the address formula's inverse, a command by its fields. -/
theorem decodeEncodeAgree : Obligations.DecodeEncodeAgree := by
  unfold Obligations.DecodeEncodeAgree
  intro cfg i hw
  have hk := hw.kindsOk
  rcases Machine.Instr_cases i with ⟨k, ch, rfl⟩ | ⟨k, ch, v, rfl⟩ | ⟨ch, d, p, r, rfl⟩ | ⟨ch, rfl⟩ | ⟨ch, rfl⟩ |
    ⟨ch, p, rfl⟩ | rfl | ⟨ch, rfl⟩
  · rw [encode_ofRead]
    exact decodeAccess_transactionWord hk false k ch 0
  · rw [encode_ofWrite]
    exact decodeAccess_transactionWord hk true k ch v
  · exact decodeCommand_commandWord (p := .normal) (.inl rfl) ch d p r
  · exact decodeCommand_commandWord (p := .normal) (.inl rfl) ch 0 0 0
  · exact decodeCommand_commandWord (p := .normal) (.inl rfl) ch 0 0 0
  · exact decodeCommand_commandWord (.inr rfl) ch 0 0 0
  · rfl
  · rfl

/-- Settles O2: the word is put together again from the fields the decoder read. -/
theorem encodeDecodeAgree : Obligations.EncodeDecodeAgree := by
  unfold Obligations.EncodeDecodeAgree
  intro cfg item i hk h
  cases item with
  | bus width tw data =>
    obtain ⟨hwidth, k, ch, hl, rfl⟩ := eq_row_of_decodeAccess h
    have htw : transactionWord (twWrite tw) (cfg.off k ch) = tw := by
      rw [← cfg.eq_off_of_locate hk hl, transactionWord_fields]
    refine ⟨hwidth, ?_⟩
    cases hwe : twWrite tw <;> rw [hwe] at htw
    · exact ⟨0, (encode_ofRead cfg k ch).trans (by rw [encodeRead, htw]), fun h => by cases h⟩
    · exact ⟨data, (encode_ofWrite cfg k ch data).trans (by rw [encodeWrite, htw]), fun _ => rfl⟩
  | command cw d p r =>
    obtain ⟨hzero, hpol, ch, hch⟩ := fields_of_decodeCommand h
    have hi := (decodeCommand_of_fields hzero hpol hch d p r).symm.trans h
    obtain rfl : _ = i := Decoded.instr.inj hi
    have hp : Polarity.ofBit (cwPolarity cw) = .normal ∨ cwOp cw = .setPolarity :=
      hpol.imp_left (congrArg Polarity.ofBit)
    obtain ⟨d', p', r', he, hports⟩ := encode_ofCommand cfg hp ch d p r
    rw [Polarity.bit_ofBit, commandWord_fields cw hzero ch hch] at he
    exact ⟨d', p', r', he, hports⟩
  | teardown | edge =>
    cases h
    rfl
  | cue q => cases h

/-- Settles O4: the register at an offset is one register, and offsets are aligned and inside the region. -/
theorem registersDoNotAlias : Obligations.RegistersDoNotAlias := by
  unfold Obligations.RegistersDoNotAlias
  intro cfg hw
  obtain ⟨hbase, hk, -, -⟩ := hw
  refine ⟨fun k ch k' ch' h => ?_, fun k ch => ?_⟩
  · have hoff : cfg.off k ch = cfg.off k' ch' := Nat.add_left_cancel h
    have hl := cfg.locate_off hk k' ch'
    rw [← hoff, cfg.locate_off hk] at hl
    simpa using hl
  · obtain ⟨halign, hregion⟩ := cfg.off_aligned_and_inRegion hk k ch
    unfold regionBytes at hregion
    unfold Config.addr
    omega

/-- Settles O5: only the kind table matters to a register word, and under the default one each word computes. -/
theorem sampleWordsDecode : Obligations.SampleWordsDecode := by
  unfold Obligations.SampleWordsDecode
  intro cfg h
  have hacc : ∀ tw d, decodeItem cfg (.bus .word tw d) = decodeItem Config.default (.bus .word tw d) :=
    fun tw d => decodeAccess_congr h .word tw d
  refine ⟨fun d => ?_, fun d => ?_, fun d => ?_, fun d => ?_, fun _ _ _ => rfl, fun _ _ _ => rfl, fun _ _ _ => rfl,
    fun _ _ _ => rfl⟩ <;> exact hacc _ d

end Sys2Proof

/-! PROOFS. The statements of 00_scope on what moves at a step (R4 to R6), of 20_memory and 30_encoding on accesses and
words without a register or a command (R43, R70), of 10_state on what no step changes (R29, R32), and of
40_register_access on the remaining raw accesses (R85, R86, R95 to R99). -/

namespace Sys2Proof.Machine

/-! ## A step, by what stands at the ports -/

theorem fetch_of_script_cons {s : State} {item : Item} {rest : List Item} (h : s.script = item :: rest) :
    fetch s = some (decodeItem s.cfg item) := by
  rw [fetch, h]
  rfl

theorem fetch_of_script_nil {s : State} (h : s.script = []) : fetch s = none := by
  rw [fetch, h]
  rfl

section
variable {s : State} (hs : s.Unstopped)
include hs

theorem step_of_fetch_none (hf : fetch s = none) : step s = .next (drain s) := by simp [step, hs.1, hs.2, hf]

theorem step_of_fetch_instr {i : Instr} (hf : fetch s = some (.instr i)) : step s = exec i s := by
  simp [step, hs.1, hs.2, hf]

theorem step_of_fetch_cue {q : Cue} (hf : fetch s = some (.cue q)) : step s = .next (runCue q s) := by
  simp [step, hs.1, hs.2, hf]

theorem step_of_fetch_badAccess {off : Byte} (hf : fetch s = some (.badAccess off)) :
    step s = .fault (.hardwareFault off) := by
  simp [step, hs.1, hs.2, hf]

theorem step_of_fetch_reservedCommand {cw : Byte} (hf : fetch s = some (.reservedCommand cw)) :
    step s = .refused (.reservedCommand cw) := by
  simp [step, hs.1, hs.2, hf]

end

/-- Settles O7: the decoded item is the one a step fetches. -/
theorem stepRunsDecodedInstruction : Obligations.StepRunsDecodedInstruction := by
  unfold Obligations.StepRunsDecodedInstruction
  intro s item rest i hs hscript hi
  exact step_of_fetch_instr hs (by rw [fetch_of_script_cons hscript, hi])

/-- With the first item gone the script is the rest. -/
theorem consume_of_script_cons {s : State} {item : Item} {rest : List Item} (h : s.script = item :: rest) :
    s.consume = { s with script := rest } := by
  rw [State.consume, h, List.tail_cons]

/-- An await item runs its sequencer while it is busy, and is consumed when it is idle (30_encoding R71). -/
theorem step_await {s : State} {ch : Chan} {rest : List Item} (hs : s.Unstopped)
    (hscript : s.script = .cue (.await ch) :: rest) :
    step s = .next (if s.busy ch = true then microStep ch s else { s with script := rest }) := by
  rw [step_of_fetch_cue hs (fetch_of_script_cons hscript), runCue, consume_of_script_cons hscript]
  rfl

/-- Settles O8: the empty script drains, channel 0 first, and each cue is run. -/
theorem stepSchedules : Obligations.StepSchedules := by
  unfold Obligations.StepSchedules
  refine ⟨fun s hs hscript => ?_, fun s ch rest hs hscript => ?_, fun s ch rest => step_await,
    fun s ch rest hs hscript => ?_⟩
  · have hstep := step_of_fetch_none hs (fetch_of_script_nil hscript)
    rw [hstep]
    refine ⟨fun h0 => ?_, fun h0 h1 => ?_, fun h0 h1 h2 => ?_, fun ⟨_, hidle, _⟩ => ?_⟩
    · simp [drain, h0]
    · simp [drain, h0, h1]
    · simp [drain, h0, h1, h2]
    · simp [drain, hidle]
  · rw [step_of_fetch_cue hs (fetch_of_script_cons hscript), runCue,
      consume_of_script_cons ((microStep_script ch s).trans hscript)]
  · rw [step_of_fetch_cue hs (fetch_of_script_cons hscript), runCue, State.consume, hscript, List.tail_cons]

/-! ## Accesses that reach no register, and reserved encodings -/

/-- Settles O9: such an access decodes to a fault, and a fault keeps the channels. -/
theorem badAccessFaults : Obligations.BadAccessFaults := by
  unfold Obligations.BadAccessFaults
  intro s width tw data rest hs hscript hbad
  have hfault := step_of_fetch_badAccess hs
    ((fetch_of_script_cons hscript).trans (congrArg some (decodeAccess_eq_badAccess hbad data)))
  rw [advance_of_fault hfault]
  exact ⟨hfault, rfl, rfl⟩

/-! ## Acceptance of a command -/

/-- Settles O35: the checks of the contract in their order, and the latches when all three pass. -/
theorem acceptConfigure : Obligations.AcceptConfigure := by
  unfold Obligations.AcceptConfigure
  intro s ch d p r hb
  refine ⟨fun hd => ?_, fun hd hr => ?_, fun hd hr hp ht => ?_, fun hd hr ht => ?_⟩
  · have hduty : dutyOk d = false := by simp [dutyOk, hd]
    simp [exec, execConfigure, hb, hduty]
  · simp [exec, execConfigure, hb, dutyOk_iff.mpr hd, rateOk, hr]
  · have hperiod : periodOk p r = false :=
      Bool.eq_false_iff.mpr fun h => absurd (periodOk_iff.mp h hp) (not_lt.mpr ht)
    simp [exec, execConfigure, hb, dutyOk_iff.mpr hd, rateOk_iff.mpr hr, hperiod]
  · exact exec_configure_of_contract hb hd hr ht

/-- A command without operand ports is latched by an idle channel. -/
theorem accept_of_idle {s : State} {ch : Chan} (hb : s.busy ch = false) (op : Command) (p : Polarity) :
    accept ch op p s = (s.setSeq ch (latch (s.seq ch) op p)).consume := by
  simp [accept, hb]

/-- Settles O36: the latches of an accepted command, for each of the three. -/
theorem acceptOtherCommands : Obligations.AcceptOtherCommands := by
  unfold Obligations.AcceptOtherCommands
  intro s ch p hb
  exact ⟨congrArg _ (accept_of_idle hb .enable .normal), congrArg _ (accept_of_idle hb .disable .normal),
    congrArg _ (accept_of_idle hb .setPolarity p)⟩

/-! ## Reserved encodings -/

theorem ofCode_ne_setPolarity : ∀ b : BitVec 2, b ≠ 0b11 → Command.ofCode b ≠ .setPolarity := by decide

/-- Bits 15:0 decide what a 16-bit register stores. -/
theorem setWidth_half_congr {v w : Word} (h : v &&& 0xFFFF = w &&& 0xFFFF) : v.setWidth 16 = w.setWidth 16 := by
  have hmask : ∀ u : Word, (u &&& 0xFFFF).setWidth 16 = u.setWidth 16 := fun u => by
    rw [BitVec.setWidth_and, show (0xFFFF : Word).setWidth 16 = BitVec.allOnes 16 from rfl, BitVec.and_allOnes]
  rw [← hmask v, h, hmask w]

/-- A store depends on the implemented bits of the value only. -/
theorem Channel.writeReg_congr (c : Channel) (cfg : Config) (r : Reg) {v w : Word}
    (hclk : r = .clkCtrl → v &&& cfg.clkImplMask = w &&& cfg.clkImplMask)
    (hcnt : r = .cntCtrl → v &&& cfg.cntImplMask = w &&& cfg.cntImplMask)
    (hhalf : r ≠ .clkCtrl → r ≠ .cntCtrl → v &&& 0xFFFF = w &&& 0xFFFF) :
    c.writeReg cfg r v = c.writeReg cfg r w := by
  cases r
  case clkCtrl => rw [Channel.writeReg, hclk rfl]; rfl
  case cntCtrl => rw [Channel.writeReg, hcnt rfl]; rfl
  case counterValue => rfl
  all_goals
    rw [Channel.writeReg, setWidth_half_congr (hhalf (by decide) (by decide))]
    rfl

/-- Settles O6: an offset decodes to a fault or to a row that is refused, a reserved word to a refusal; the operands are
checked at acceptance; the store drops the other bits. -/
theorem reservedEncodings : Obligations.ReservedEncodings := by
  unfold Obligations.ReservedEncodings
  refine ⟨fun s tw data rest hs hscript hoff => ?_, fun s tw data rest d ch hs hscript hl => ?_,
    fun s cw d p r rest hs hscript hres => ?_, fun s ch d p r hb hcontract => ?_,
    fun c cfg r v w => c.writeReg_congr cfg r⟩
  · exact step_of_fetch_badAccess hs
      ((fetch_of_script_cons hscript).trans (congrArg some (decodeAccess_eq_badAccess (.inr hoff) data)))
  · have hf := fetch_of_script_cons hscript
    simp only [decodeItem, decodeAccess, hl] at hf
    rw [step_of_fetch_instr hs hf]
    split
    · exact exec_ofWrite_dead d ch data s
    · exact exec_ofRead_dead d ch s
  · have hreserved : cwChan cw = none ∨ cwZero cw ≠ 0 ∨ (cwPolarity cw = true ∧ cwOp cw ≠ .setPolarity) := by
      refine hres.imp (fun h => ?_) (Or.imp_right (And.imp_right (ofCode_ne_setPolarity _)))
      rw [cwChan, h]
      rfl
    exact step_of_fetch_reservedCommand hs
      ((fetch_of_script_cons hscript).trans (congrArg some (decodeCommand_of_reserved hreserved d p r)))
  · obtain ⟨hduty, hrate, hperiod, -⟩ := acceptConfigure s ch d p r hb
    by_cases hd : d.toInt < 0
    · exact ⟨_, hduty hd⟩
    · by_cases hr : r = 0
      · exact ⟨_, hrate (not_lt.mp hd) hr⟩
      · obtain ⟨hp, ht⟩ := (hcontract.resolve_left hd).resolve_left hr
        exact ⟨_, hperiod (not_lt.mp hd) hr hp ht⟩

/-! ## What no step changes -/

/-- Settles O11: a move's events, at most an access and a completion. -/
theorem traceOnlyGrows : Obligations.TraceOnlyGrows := by
  unfold Obligations.TraceOnlyGrows
  intro s t h
  exact (step_cases h).2.trace

/-- Settles O12: no move changes the parameters. -/
theorem parametersNeverChange : Obligations.ParametersNeverChange := by
  unfold Obligations.ParametersNeverChange
  intro s t h
  exact (step_cases h).2.fixed.1

/-! ## The remaining raw accesses -/

/-- Settles O15: the two accesses on an idle channel; the write stores nothing, so the channel is set to itself. -/
theorem accessCounterValue : Obligations.AccessCounterValue := by
  unfold Obligations.AccessCounterValue
  intro s ch v h
  refine ⟨exec_ofRead_of_idle h .counterValue, ?_⟩
  rw [exec_ofWrite_of_idle h .counterValue v, Channel.writeReg, State.setChan_chan]
  rfl

/-- Settles O19: the rows of a kind without modelled state are the refusal by name. -/
theorem unmodelledKindsRefused : Obligations.UnmodelledKindsRefused := by
  unfold Obligations.UnmodelledKindsRefused
  exact fun s d ch v => ⟨exec_ofRead_dead d ch s, exec_ofWrite_dead d ch v s⟩

section
variable {s : State} {ch : Chan} (hb : s.busy ch = true)
include hb

theorem exec_ofRead_of_busy (r : Reg) : exec (Instr.ofRead (.reg r) ch) s = .next (microStep ch s) :=
  (exec_ofRead r ch s).trans (if_pos hb)

theorem exec_ofWrite_of_busy (r : Reg) (v : Word) : exec (Instr.ofWrite (.reg r) ch v) s = .next (microStep ch s) :=
  (exec_ofWrite r ch v s).trans (if_pos hb)

theorem exec_configure_of_busy (d p r : Word) : exec (.configure ch d p r) s = .next (microStep ch s) := if_pos hb

theorem accept_of_busy (op : Command) (p : Polarity) : accept ch op p s = microStep ch s := if_pos hb

end

/-- Settles O20: each move asks first whether its channel is busy, and a micro-step leaves the script alone. -/
theorem hostWaitsForBusyChannel : Obligations.HostWaitsForBusyChannel := by
  unfold Obligations.HostWaitsForBusyChannel
  exact fun s ch hb => ⟨exec_ofRead_of_busy hb, exec_ofWrite_of_busy hb, exec_configure_of_busy hb,
    congrArg _ (accept_of_busy hb .enable .normal), congrArg _ (accept_of_busy hb .disable .normal),
    fun p => congrArg _ (accept_of_busy hb .setPolarity p), microStep_script ch s⟩

/-- Settles O22: the edge does not reach the channel, and its item is consumed. -/
theorem edgeWithClockStopped : Obligations.EdgeWithClockStopped := by
  unfold Obligations.EdgeWithClockStopped
  intro s ch hoff
  simp [exec, execEdge, hoff, State.consume]

end Sys2Proof.Machine

/-! PROOFS. The statements of 41_timer_core on a reset request (R111) and on the steady state, of 42_configure on a
period that needs no prescaler, and of 20_memory on the bytes of the region. -/

namespace Sys2Proof.Machine

/-! ## A pending reset request -/

/-- A pending reset is carried out whatever else the register says (R110, R111). -/
theorem Channel.clockEdge_of_rst {cfg : Config} {c : Channel} (hr : rst cfg c.cntCtrl = true) :
    c.clockEdge cfg = some (c.resetService cfg) := by
  rw [Channel.clockEdge, if_pos hr]

/-- Reset service, field by field: a period starts, unless the match value is 0 and the match enabled (R111, R116). -/
theorem Channel.resetService_eq {cfg : Config} (h : cfg.CntOk) (c : Channel) :
    c.resetService cfg = { c with
      counter := 0
      psCnt := 0
      cntCtrl := clearBit c.cntCtrl cfg.cnt.rst
      active := decide (¬(matchEn cfg c.cntCtrl = true ∧ c.match1 = 0)) } := by
  obtain ⟨-, -, -, ⟨hmr, -, -⟩, -⟩ := cnt_facts h
  have hm : matchEn cfg (clearBit c.cntCtrl cfg.cnt.rst) = matchEn cfg c.cntCtrl := testBit_clearBit_ne _ hmr.symm
  have ha : phaseUpdate (matchEn cfg c.cntCtrl) c.match1 0 true c.active =
      decide (¬(matchEn cfg c.cntCtrl = true ∧ c.match1 = 0)) := by
    have hz : (0 : Half) = c.match1 ↔ c.match1 = 0 := eq_comm
    simp only [phaseUpdate_eq_ite, hz]
    split <;> simp_all
  rw [Channel.resetService, Channel.storeCounter, hm, ha]

/-- Settles O23: the edge stores the channel of the reset service. -/
theorem edgeServicesReset : Obligations.EdgeServicesReset := by
  unfold Obligations.EdgeServicesReset
  intro s ch hw hon hr
  rw [exec_edge_of_clockEdge_some hon (Channel.clockEdge_of_rst hr), Channel.resetService_eq hw.cntOk]
  rfl

/-! ## The steady state -/

/-- Edges one after the other: the first, then the rest. -/
theorem edges_succ {s u : State} {ch : Chan} (h : exec (.edge ch) s = .next u) (n : Nat) :
    edges ch (n + 1) s = edges ch n u := by
  rw [edges, h]

/-- One more edge within a tick, or one that completes it: quotient and remainder by the divisor. -/
theorem div_mod_succ {t div : Nat} (hd : 0 < div) :
    (t % div + 1 < div → (t + 1) / div = t / div ∧ (t + 1) % div = t % div + 1) ∧
    (div ≤ t % div + 1 → (t + 1) / div = t / div + 1 ∧ (t + 1) % div = 0) := by
  have ht := Nat.div_add_mod t div
  have hlt := Nat.mod_lt t hd
  refine ⟨fun h => (Nat.div_mod_unique hd).mpr ⟨by omega, h⟩, fun h => (Nat.div_mod_unique hd).mpr ⟨?_, hd⟩⟩
  rw [Nat.mul_add]
  omega

/-- The counter after `q` count ticks from 0 with a given interval (R118). -/
def countAt (interval : Half) (q : Nat) : Half := BitVec.ofNat 16 (q % (interval.toNat + 1))

/-- The phase after `q` count ticks: active in the first `match1` counts of a period (R118). -/
def phaseAt (interval match1 : Half) (q : Nat) : Bool :=
  decide (interval.toNat < match1.toNat ∨ (1 ≤ match1.toNat ∧ q % (interval.toNat + 1) < match1.toNat))

theorem mod_period_le (interval : Half) (q : Nat) : q % (interval.toNat + 1) ≤ interval.toNat :=
  Nat.lt_succ_iff.mp (Nat.mod_lt q (Nat.succ_pos _))

/-- A count tick goes on in the period, or starts the next one from the interval. -/
theorem mod_period_succ (interval : Half) (q : Nat) :
    (q + 1) % (interval.toNat + 1) =
      if q % (interval.toNat + 1) = interval.toNat then 0 else q % (interval.toNat + 1) + 1 := by
  have hle := mod_period_le interval q
  obtain ⟨hstep, hwrap⟩ := div_mod_succ (t := q) (div := interval.toNat + 1) (Nat.succ_pos _)
  split
  · exact (hwrap (by omega)).2
  · exact (hstep (by omega)).2

theorem countAt_toNat (interval : Half) (q : Nat) : (countAt interval q).toNat = q % (interval.toNat + 1) :=
  Nat.mod_eq_of_lt ((mod_period_le interval q).trans_lt interval.isLt)

/-- The counter stays at or below the interval, so the only wrap is the one at the interval. -/
theorem counterWraps_countAt (interval : Half) (q : Nat) :
    counterWraps (countAt interval q) interval = decide (q % (interval.toNat + 1) = interval.toNat) := by
  have hle := mod_period_le interval q
  have hmax : (65535#16).toNat = 65535 := rfl
  rw [counterWraps_eq_decide, decide_eq_decide, ← BitVec.toNat_inj, ← BitVec.toNat_inj, countAt_toNat]
  omega

theorem counterNext_countAt (interval : Half) (q : Nat) :
    counterNext (countAt interval q) interval = countAt interval (q + 1) := by
  rw [counterNext, counterWraps_countAt, countAt, countAt, mod_period_succ]
  simp only [decide_eq_true_eq]
  split
  · rfl
  · exact (BitVec.ofNat_add _ _).symm

/-- The comparator clears the phase at the match value, and a period starts at 0 unless that is the match value. -/
theorem phaseUpdate_phaseAt (interval match1 : Half) (q : Nat) :
    phaseUpdate true match1 (countAt interval (q + 1)) (counterWraps (countAt interval q) interval)
      (phaseAt interval match1 q) = phaseAt interval match1 (q + 1) := by
  have hle := mod_period_le interval q
  have hmatch : countAt interval (q + 1) = match1 ↔ (q + 1) % (interval.toNat + 1) = match1.toNat := by
    rw [← BitVec.toNat_inj, countAt_toNat]
  simp only [phaseUpdate_eq_ite, counterWraps_countAt, hmatch, true_and, decide_eq_true_eq, phaseAt, mod_period_succ]
  by_cases hwrap : q % (interval.toNat + 1) = interval.toNat
  · simp only [if_pos hwrap]
    split
    · exact (decide_eq_false (by omega)).symm
    · exact (decide_eq_true (by omega)).symm
  · simp only [if_neg hwrap]
    split
    · exact (decide_eq_false (by omega)).symm
    · exact decide_eq_decide.mpr (by omega)

section
variable {cfg : Config} {c : Channel}

/-- The channel `t` edges after the one that carried out its reset request (R118). -/
def Channel.steady (c : Channel) (cfg : Config) (t : Nat) : Channel :=
  { c with
    cntCtrl := clearBit c.cntCtrl cfg.cnt.rst
    psCnt := BitVec.ofNat 16 (t % divisor cfg c.clkCtrl)
    counter := countAt c.interval (t / divisor cfg c.clkCtrl)
    active := phaseAt c.interval c.match1 (t / divisor cfg c.clkCtrl) }

/-- The reset service is the start of the steady state. -/
theorem Channel.resetService_eq_steady (h : cfg.CntOk) (hm : matchEn cfg c.cntCtrl = true) :
    c.resetService cfg = c.steady cfg 0 := by
  have hphase : decide (¬(matchEn cfg c.cntCtrl = true ∧ c.match1 = 0)) = phaseAt c.interval c.match1 0 := by
    have hz : c.match1 = 0 ↔ c.match1.toNat = 0 := BitVec.toNat_inj.symm
    rw [phaseAt, decide_eq_decide, hz, Nat.zero_mod]
    simp only [hm, true_and]
    omega
  rw [Channel.resetService_eq h, Channel.steady, hphase]
  simp [countAt]

/-- Each edge goes on in it: a step of the prescaler within a tick, a count tick at its end. -/
theorem Channel.clockEdge_steady (h : cfg.CntOk) (hd : dis cfg c.cntCtrl = false) (hi : int cfg c.cntCtrl = true)
    (hdec : dec cfg c.cntCtrl = false) (hm : matchEn cfg c.cntCtrl = true) (t : Nat) :
    (c.steady cfg t).clockEdge cfg = some (c.steady cfg (t + 1)) := by
  obtain ⟨hdis', -, -, hint', hdec', hmatch'⟩ := fields_of_sameButRst h (clearBit_clearBit c.cntCtrl cfg.cnt.rst)
  obtain ⟨hpos, hle⟩ := divisor_bounds cfg c.clkCtrl
  have hps : (c.steady cfg t).psCnt.toNat = t % divisor cfg c.clkCtrl :=
    Nat.mod_eq_of_lt ((Nat.mod_lt t hpos).trans_le hle)
  obtain ⟨hstep, htick⟩ := div_mod_succ (t := t) hpos
  have hadm : admittedMode cfg (c.steady cfg t).cntCtrl = true :=
    (admittedMode_eq_true_iff _ _).mpr ⟨hint'.trans hi, hdec'.trans hdec⟩
  have hrst : rst cfg (c.steady cfg t).cntCtrl = false := testBit_clearBit_self _ _
  rw [Channel.clockEdge_of_enabled hrst (hdis'.trans hd), if_pos hadm]
  congr 1
  by_cases hlt : t % divisor cfg c.clkCtrl + 1 < divisor cfg c.clkCtrl
  · rw [Channel.countEdge_of_lt (by rwa [hps])]
    obtain ⟨hq, hr⟩ := hstep hlt
    simp only [Channel.steady, hq, hr, BitVec.ofNat_add]
    rfl
  · obtain ⟨hq, hr⟩ := htick (not_lt.mp hlt)
    rw [Channel.countEdge_of_ge (by rw [hps]; exact not_lt.mp hlt)]
    simp only [Channel.countTick, Channel.storeCounter, Channel.steady, hq, hr, counterNext_countAt, hmatch', hm,
      phaseUpdate_phaseAt]
    rfl

end

/-- An edge of a channel whose clock runs, seen from the channel. -/
theorem exec_edge_chan {s : State} {ch : Chan} {c : Channel} (hon : (s.chan ch).clkOn = true)
    (hc : (s.chan ch).clockEdge s.cfg = some c) :
    ∃ u, exec (.edge ch) s = .next u ∧ u.cfg = s.cfg ∧ u.chan ch = c :=
  ⟨_, exec_edge_of_clockEdge_some hon hc, rfl, by simp⟩

/-- Any number of edges from a point of the steady state, by induction on the number. -/
theorem edges_steady {cfg : Config} {c : Channel} {ch : Chan} (h : cfg.CntOk) (hon : c.clkOn = true)
    (hd : dis cfg c.cntCtrl = false) (hi : int cfg c.cntCtrl = true) (hdec : dec cfg c.cntCtrl = false)
    (hm : matchEn cfg c.cntCtrl = true) (n : Nat) : ∀ (t : Nat) (s : State), s.cfg = cfg → s.chan ch = c.steady cfg t →
      ∃ u, edges ch n s = some u ∧ u.cfg = cfg ∧ u.chan ch = c.steady cfg (t + n) := by
  induction n with
  | zero => exact fun t s hcfg hs => ⟨s, rfl, hcfg, hs⟩
  | succ n ih =>
    intro t s hcfg hs
    have hedge : (s.chan ch).clockEdge s.cfg = some (c.steady cfg (t + 1)) := by
      rw [hcfg, hs]
      exact Channel.clockEdge_steady h hd hi hdec hm t
    obtain ⟨s', hs', hcfg', hchan'⟩ := exec_edge_chan (hs ▸ hon) hedge
    rw [edges_succ hs', Nat.add_comm n 1, ← Nat.add_assoc]
    exact ih (t + 1) s' (hcfg'.trans hcfg) hchan'

/-- Settles O28: edge 0 carries out the reset and starts the steady state, whose channel at edge `t` is in closed form.
-/
theorem steadyStateWaveform : Obligations.SteadyStateWaveform := by
  unfold Obligations.SteadyStateWaveform
  intro s ch hw hon hr hd hi hdec hm hwave t
  have hcnt := hw.cntOk
  obtain ⟨s₀, hs₀, hcfg₀, hchan₀⟩ := exec_edge_chan hon (Channel.clockEdge_of_rst hr)
  rw [Channel.resetService_eq_steady hcnt hm] at hchan₀
  obtain ⟨u, hu, hcfg, hchan⟩ := edges_steady hcnt hon hd hi hdec hm t 0 s₀ hcfg₀ hchan₀
  rw [Nat.zero_add] at hchan
  obtain ⟨-, hwave', hpol', -⟩ := fields_of_sameButRst hcnt (clearBit_clearBit (s.chan ch).cntCtrl s.cfg.cnt.rst)
  refine ⟨u, (edges_succ hs₀ t).trans hu, ?_, ?_, ?_⟩
  · rw [hchan]
    exact countAt_toNat _ _
  · rw [hchan]
    exact decide_eq_true_iff
  · rw [State.waveOut, hcfg, hchan, waveMux]
    simp only [Channel.steady, hwave', hpol', hwave, Bool.false_eq_true, if_false]

/-! ## A period that needs no prescaler -/

/-- Settles O34: such a period has exponent 0, which turns the prescaler off and shifts nothing out. -/
theorem roundTripAtZeroPrescaler : Obligations.RoundTripAtZeroPrescaler := by
  unfold Obligations.RoundTripAtZeroPrescaler
  intro cfg y ext p hw hp
  have he : exponent p = 0 := Nat.le_zero.mp ((exponent_le_iff p 0).mpr hp)
  refine ⟨he, ?_, ?_⟩
  · rw [he, psEn_clkval hw.clkOk y 0 ext (by omega)]
    rfl
  · obtain ⟨hinterval, -⟩ := thresholdValues
    rw [hinterval, he, Nat.shiftRight_zero]

/-! ## The bytes of the region -/

/-- A byte is kept when the register it stands in reads as before. -/
theorem readByte_congr {s t : State} (hcfg : t.cfg = s.cfg) {a : Nat}
    (h : ∀ r ch, s.cfg.locate (a / 4 * 4) = some (.reg r, ch) → (t.chan ch).readReg r = (s.chan ch).readReg r) :
    t.readByte a = s.readByte a := by
  unfold State.readByte
  rw [hcfg]
  split
  · rename_i r ch hl
    simp only [h r ch hl]
  · rfl

theorem readByte_eq_of_readReg {s t : State} (hcfg : t.cfg = s.cfg)
    (h : ∀ ch r, (t.chan ch).readReg r = (s.chan ch).readReg r) (a : Nat) : t.readByte a = s.readByte a :=
  readByte_congr hcfg fun r ch _ => h ch r

/-- A byte outside a register's word stands in another register. -/
theorem ne_of_locate_outside {c : Config} (hk : c.KindsOk) {a : Nat} {r r' : Reg} {ch ch' : Chan}
    (ha : a < c.off (.reg r) ch ∨ c.off (.reg r) ch + 4 ≤ a) (hl : c.locate (a / 4 * 4) = some (.reg r', ch')) :
    ch' ≠ ch ∨ r' ≠ r := by
  have hoff := c.eq_off_of_locate hk hl
  by_contra hn
  obtain ⟨rfl, rfl⟩ := not_or.mp hn |>.imp not_not.mp not_not.mp
  omega

/-- The bytes of a register are its little-endian lanes (20_memory R44). -/
theorem readByte_lane {s : State} (hk : s.cfg.KindsOk) (r : Reg) (ch : Chan) {i : Nat} (hi : i < 4) :
    s.readByte (s.cfg.off (.reg r) ch + i) = some (((s.chan ch).readReg r).extractLsb' (8 * i) 8) := by
  obtain ⟨halign, -⟩ := s.cfg.off_aligned_and_inRegion hk (.reg r) ch
  have hword : (s.cfg.off (.reg r) ch + i) / 4 * 4 = s.cfg.off (.reg r) ch := by omega
  have hlane : (s.cfg.off (.reg r) ch + i) % 4 = i := by omega
  simp only [State.readByte, hword, hlane, s.cfg.locate_off hk]

/-- The registers of a channel do not depend on its sequencer. -/
theorem readReg_setSeq (s : State) (ch : Chan) (q : Seq) (ch' : Chan) (r : Reg) :
    ((s.setSeq ch q).chan ch').readReg r = (s.chan ch').readReg r := by
  rw [State.setSeq, State.chan_setChan]
  split
  · subst ch'
    cases r <;> rfl
  · rfl

/-- A clock edge leaves every register but the counter and its control register. -/
theorem readReg_clockEdge {c c' : Channel} {cfg : Config} (h : c.clockEdge cfg = some c') {r : Reg}
    (hcnt : r ≠ .cntCtrl) (hcounter : r ≠ .counterValue) : c'.readReg r = c.readReg r := by
  obtain ⟨k, p, a, w, rfl, -⟩ := Channel.clockEdge_frame h
  cases r
  case cntCtrl => exact absurd rfl hcnt
  case counterValue => exact absurd rfl hcounter
  all_goals rfl

/-- An idle channel that takes a command changes its sequencer alone. -/
theorem setSeq_of_exec_command {s t : State} {ch : Chan} {i : Instr} (hb : s.busy ch = false)
    (hi : (∃ d p r, i = .configure ch d p r) ∨ i = .enable ch ∨ i = .disable ch ∨ ∃ p, i = .setPolarity ch p)
    (h : exec i s = .next t) : ∃ q, t = (s.setSeq ch q).consume := by
  have hacc {op : Command} {p : Polarity} (h : accept ch op p s = t) : ∃ q, t = (s.setSeq ch q).consume :=
    ⟨_, h.symm.trans (accept_of_idle hb op p)⟩
  rcases hi with ⟨d, p, r, rfl⟩ | rfl | rfl | ⟨p, rfl⟩
  · simp only [exec, execConfigure, hb, Bool.false_eq_true, if_false] at h
    split at h
    · cases h
    · split at h
      · cases h
      · split at h
        · cases h
        · exact ⟨_, (outcome_next_inj h).symm⟩
  · exact hacc (outcome_next_inj h)
  · exact hacc (outcome_next_inj h)
  · exact hacc (outcome_next_inj h)

/-- An edge that is not refused does not reach the channel, or stores what the timer channel does. -/
theorem exec_edge_cases {s t : State} {ch : Chan} (h : exec (.edge ch) s = .next t) :
    ((s.chan ch).clkOn = false ∧ t = s.consume) ∨
    ∃ c, (s.chan ch).clkOn = true ∧ (s.chan ch).clockEdge s.cfg = some c ∧
      t = ((s.setChan ch c).record (.edge ch)).consume := by
  cases hon : (s.chan ch).clkOn with
  | false => exact .inl ⟨rfl, outcome_next_inj (h.symm.trans (edgeWithClockStopped s ch hon))⟩
  | true =>
    cases hc : (s.chan ch).clockEdge s.cfg with
    | none =>
      rw [exec_edge_of_clockEdge_none hon hc] at h
      cases h
    | some c => exact .inr ⟨c, rfl, rfl, outcome_next_inj (h.symm.trans (exec_edge_of_clockEdge_some hon hc))⟩

/-- Settles O21: each operation by the registers it can touch, and the bytes they stand at. -/
theorem regionByteFrame : Obligations.RegionByteFrame := by
  unfold Obligations.RegionByteFrame
  intro s t ch hk
  refine ⟨fun r hb h => ?_, fun r v hb h => ?_, fun i hb hi h => ?_, fun h => ?_, fun h a hcnt hcounter => ?_⟩
  · obtain rfl := outcome_next_inj ((exec_ofRead_of_idle hb r).symm.trans h)
    exact readByte_eq_of_readReg rfl fun _ _ => rfl
  · have ht := outcome_next_inj (h.symm.trans (exec_ofWrite_of_idle hb r v))
    have hcfg : t.cfg = s.cfg := by rw [ht]; rfl
    refine ⟨fun a ha => readByte_congr hcfg fun r' ch' hl => ?_, fun i hi => ?_⟩
    · simp only [ht, State.chan_consume, State.chan_record, State.chan_setChan]
      split
      · subst ch'
        obtain ⟨-, -, -, -, -, -, -, hkeep⟩ := (s.chan ch).writeReg_frame s.cfg r v
        exact hkeep r' ((ne_of_locate_outside hk ha hl).resolve_left (not_not.mpr rfl))
      · rfl
    · rw [← hcfg]
      exact readByte_lane (hcfg ▸ hk) r ch hi
  · obtain ⟨q, rfl⟩ := setSeq_of_exec_command hb hi h
    exact readByte_eq_of_readReg rfl fun ch' r => readReg_setSeq s ch q ch' r
  · obtain rfl := outcome_next_inj h
    exact readByte_eq_of_readReg rfl fun _ _ => rfl
  · obtain ⟨-, ht⟩ | ⟨c, -, hc, ht⟩ := exec_edge_cases h
    · have hcfg : t.cfg = s.cfg := by rw [ht]; rfl
      exact readByte_eq_of_readReg hcfg (fun ch' r => by rw [ht]; rfl) a
    · have hcfg : t.cfg = s.cfg := by rw [ht]; rfl
      refine readByte_congr hcfg fun r ch' hl => ?_
      simp only [ht, State.chan_consume, State.chan_record, State.chan_setChan]
      split
      · subst ch'
        exact readReg_clockEdge hc ((ne_of_locate_outside hk hcnt hl).resolve_left (not_not.mpr rfl))
          ((ne_of_locate_outside hk hcounter hl).resolve_left (not_not.mpr rfl))
      · rfl

end Sys2Proof.Machine

/-! PROOFS. The statements of 10_state and 60_exceptions on what writes the timer, the clock gate and the channel
record, of 10_state and 20_memory on the channels' independence, and of 43_lifecycle on the completion of a command
(R172). -/

namespace Sys2Proof

/-- Entries of two channels can be replaced in either order. -/
theorem PerChan.set_comm {α : Type} (p : PerChan α) {a b : Chan} (h : a ≠ b) (x y : α) :
    (p.set a x).set b y = (p.set b y).set a x := by
  refine PerChan.ext_get fun ch => ?_
  simp only [PerChan.get_set]
  by_cases hb : ch = b
  · subst hb
    simp [h.symm]
  · simp [hb]

end Sys2Proof

namespace Sys2Proof.Machine

/-! ## What a micro-step writes -/

section
variable (c : Channel) (cfg : Config) (ext fail : Bool)

/-- A sequencer does not reach the hidden state of the timer (10_state R13, R19, R20). -/
theorem Channel.micro_timer : (c.micro cfg ext fail).counter = c.counter ∧ (c.micro cfg ext fail).psCnt = c.psCnt ∧
    (c.micro cfg ext fail).active = c.active := by
  cases hpc : c.seq.pc <;> simp only [Channel.micro, hpc]
  case cCheck | cClk | eClk => split <;> simp
  all_goals simp

/-- A handshake that succeeds opens the clock gate and `D_CLKOFF` closes it (60_exceptions R194). -/
theorem Channel.micro_clkOn : (c.micro cfg ext fail).clkOn = c.clkOn ∨
    ((c.micro cfg ext fail).clkOn = true ∧ (c.seq.pc = .cClk ∨ c.seq.pc = .eClk) ∧ fail = false) ∨
    ((c.micro cfg ext fail).clkOn = false ∧ c.seq.pc = .dClkoff) := by
  cases hpc : c.seq.pc <;> simp only [Channel.micro, hpc]
  case cCheck => split <;> simp
  case cClk | eClk => cases fail <;> simp
  case dClkoff => simp
  all_goals simp

/-- `P_SET` latches the polarity (10_state R22). -/
theorem Channel.micro_pol : (c.micro cfg ext fail).pol = c.pol ∨
    (c.seq.pc = .pSet ∧ (c.micro cfg ext fail).pol = c.seq.polArg) := by
  cases hpc : c.seq.pc <;> simp only [Channel.micro, hpc]
  case cCheck | cClk | eClk => split <;> simp
  case pSet => simp
  all_goals simp

/-- The end of a CONFIGURE writes the last-applied record (42_configure R146). -/
theorem Channel.micro_last : (c.micro cfg ext fail).last = c.last ∨
    (c.seq.pc = .cWrRestore ∧ (c.micro cfg ext fail).last =
      some { e := c.seq.e, intervalCount := c.seq.icnt, matchCount := c.seq.mcnt }) := by
  cases hpc : c.seq.pc <;> simp only [Channel.micro, hpc]
  case cCheck | cClk | eClk => split <;> simp
  case cWrRestore => simp
  all_goals simp

/-- A completion with `OK` of CONFIGURE, ENABLE or DISABLE writes the phase (43_lifecycle R171). -/
theorem Channel.micro_phase : (c.micro cfg ext fail).phase = c.phase ∨
    ((c.micro cfg ext fail).seq.pc = .idle ∧ (c.micro cfg ext fail).seq.status = .ok ∧
      ((c.seq.pc = .cWrRestore ∧ c.phase = .disabled ∧ (c.micro cfg ext fail).phase = .configured) ∨
       (c.seq.pc = .eWr ∧ (c.micro cfg ext fail).phase = .enabled) ∨
       (c.seq.pc = .dClkoff ∧ (c.micro cfg ext fail).phase = .disabled))) := by
  cases hpc : c.seq.pc <;> simp only [Channel.micro, hpc]
  case cCheck | cClk | eClk => split <;> simp
  case cWrRestore => cases c.phase <;> simp [configuredPhase, Seq.finish]
  case eWr | dClkoff => simp [Seq.finish]
  all_goals simp

end

/-! ## What the other moves write -/

/-- A move that changes the hidden state of a channel's timer is a clock edge that reaches it. -/
theorem ChanCase.timer {s t : State} {ch : Chan} (h : ChanCase s t ch) :
    ((t.chan ch).counter = (s.chan ch).counter ∧ (t.chan ch).psCnt = (s.chan ch).psCnt ∧
      (t.chan ch).active = (s.chan ch).active) ∨
    (fetch s = some (.instr (.edge ch)) ∧ (s.chan ch).clkOn = true) := by
  cases h with
  | edge c hf hon hc h => exact .inr ⟨hf, hon⟩
  | micro h =>
    rw [h]
    exact .inl (Channel.micro_timer ..)
  | write r v hf hb h =>
    rw [h]
    obtain ⟨h1, h2, h3, -⟩ := (s.chan ch).writeReg_frame s.cfg r v
    exact .inl ⟨h1, h2, h3⟩
  | same h | accept _ _ _ _ h | acceptConfigure _ _ _ _ _ h =>
    rw [h]
    exact .inl ⟨rfl, rfl, rfl⟩

/-- A move that changes a channel's clock gate or its record is a micro-step of its sequencer. -/
theorem ChanCase.gate_and_record {s t : State} {ch : Chan} (h : ChanCase s t ch) :
    t.chan ch = (s.chan ch).micro s.cfg (s.cfg.extClk.get ch) (s.clkFail.get ch) ∨
    ((t.chan ch).clkOn = (s.chan ch).clkOn ∧ (t.chan ch).pol = (s.chan ch).pol ∧
      (t.chan ch).last = (s.chan ch).last ∧ (t.chan ch).phase = (s.chan ch).phase) := by
  cases h with
  | micro h => exact .inl h
  | write r v hf hb h =>
    rw [h]
    obtain ⟨-, -, -, h1, h2, h3, h4, -⟩ := (s.chan ch).writeReg_frame s.cfg r v
    exact .inr ⟨h1, h2, h3, h4⟩
  | edge c hf hon hc h =>
    obtain ⟨k, p, a, w, rfl, -⟩ := Channel.clockEdge_frame hc
    rw [h]
    exact .inr ⟨rfl, rfl, rfl, rfl⟩
  | same h | accept _ _ _ _ h | acceptConfigure _ _ _ _ _ h =>
    rw [h]
    exact .inr ⟨rfl, rfl, rfl, rfl⟩

/-! ## The statements on who writes what -/

/-- Settles O50: `ChanCase.timer`, at a step. -/
theorem onlyEdgesMoveTheTimer : Obligations.OnlyEdgesMoveTheTimer := by
  unfold Obligations.OnlyEdgesMoveTheTimer
  intro s t ch h hne
  obtain ⟨h1, h2, h3⟩ | hedge := ((step_cases h).2.chan ch).timer
  · simp [h1, h2, h3] at hne
  · exact hedge

/-- Settles O51: a step that moves the gate is a micro-step, and `Channel.micro_clkOn` says which. -/
theorem onlySequencersGateTheClock : Obligations.OnlySequencersGateTheClock := by
  unfold Obligations.OnlySequencersGateTheClock
  intro s t ch h hne
  obtain hmicro | ⟨hkept, -⟩ := ((step_cases h).2.chan ch).gate_and_record
  · rw [hmicro] at hne ⊢
    exact (Channel.micro_clkOn ..).resolve_left hne
  · exact absurd hkept hne

/-- Settles O52: as O51, field by field of the record. -/
theorem onlyCompletionsWriteTheRecord : Obligations.OnlyCompletionsWriteTheRecord := by
  unfold Obligations.OnlyCompletionsWriteTheRecord
  intro s t ch h
  obtain hmicro | ⟨-, hpol, hlast, hphase⟩ := ((step_cases h).2.chan ch).gate_and_record
  · rw [State.seq, State.seq, hmicro]
    exact ⟨(Channel.micro_pol ..).resolve_left, (Channel.micro_last ..).resolve_left,
      (Channel.micro_phase ..).resolve_left⟩
  · exact ⟨fun hne => absurd hpol hne, fun hne => absurd hlast hne, fun hne => absurd hphase hne⟩

/-! ## Channels -/

/-- The channels an outcome answers with, if it is a next state. -/
def chansOf : Host.Outcome State Fault Refusal → Option (PerChan Channel)
  | .next t => some t.chans
  | .fault _ => none
  | .refused _ => none

theorem chansOf_eq_some {o : Host.Outcome State Fault Refusal} {p : PerChan Channel} (h : chansOf o = some p) :
    ∃ t, o = .next t ∧ t.chans = p := by
  cases o with
  | next t => exact ⟨t, rfl, Option.some.inj h⟩
  | fault r => cases h
  | refused r => cases h

/-- An operation that writes one channel only, and by what the parameters, that channel and its pending answer say. -/
def LocalTo (i : Instr) (ch : Chan) : Prop :=
  ∃ f : Config → Channel → Bool → Option Channel, ∀ s,
    chansOf (exec i s) = (f s.cfg (s.chan ch) (s.clkFail.get ch)).map (s.chans.set ch)

/-- An operation that waits for its channel needs to be looked at on an idle channel only: a micro-step is its
channel's. -/
theorem LocalTo.of_idle {i : Instr} {ch : Chan} (hbusy : ∀ s, s.busy ch = true → exec i s = .next (microStep ch s))
    (g : Config → Channel → Option Channel)
    (hidle : ∀ s, s.busy ch = false → chansOf (exec i s) = (g s.cfg (s.chan ch)).map (s.chans.set ch)) :
    LocalTo i ch := by
  refine ⟨fun cfg c fail => if c.seq.pc != .idle then some (c.micro cfg (cfg.extClk.get ch) fail) else g cfg c,
    fun s => ?_⟩
  change _ = (if s.busy ch then _ else _ : Option Channel).map _
  cases hb : s.busy ch with
  | true =>
    rw [hbusy s hb, microStep_eq]
    rfl
  | false => exact hidle s hb

/-- A command without operand ports changes its channel's sequencer. -/
theorem LocalTo.of_accept {i : Instr} {ch : Chan} (op : Command) (p : Polarity)
    (h : ∀ s, exec i s = .next (accept ch op p s)) : LocalTo i ch := by
  refine .of_idle (fun s hb => (h s).trans (congrArg _ (accept_of_busy hb op p)))
    (fun _ c => some { c with seq := latch c.seq op p }) fun s hb => ?_
  rw [h, accept_of_idle hb]
  rfl

theorem localTo_of_onChannel {i : Instr} {ch : Chan} (h : OnChannel i ch) : LocalTo i ch := by
  rcases h with ⟨k, rfl⟩ | ⟨k, v, rfl⟩ | ⟨d, p, r, rfl⟩ | rfl | rfl | ⟨p, rfl⟩ | rfl
  · cases k with
    | reg r =>
      refine .of_idle (fun _ hb => exec_ofRead_of_busy hb r) (fun _ c => some c) fun s hb => ?_
      rw [exec_ofRead_of_idle hb]
      exact congrArg some (s.chans.set_get ch).symm
    | dead d => exact ⟨fun _ _ _ => none, fun s => by rw [exec_ofRead_dead]; rfl⟩
  · cases k with
    | reg r =>
      refine .of_idle (fun _ hb => exec_ofWrite_of_busy hb r v) (fun cfg c => some (c.writeReg cfg r v)) fun s hb => ?_
      rw [exec_ofWrite_of_idle hb]
      rfl
    | dead d => exact ⟨fun _ _ _ => none, fun s => by rw [exec_ofWrite_dead]; rfl⟩
  · refine .of_idle (fun _ hb => exec_configure_of_busy hb d p r) (fun _ c =>
      if dutyOk d && rateOk r && periodOk p r then some { c with
        seq := { latch c.seq .configure .normal with dutyNs := d, periodNs := p, rateHz := r } } else none)
      fun s hb => ?_
    simp only [exec, execConfigure, hb]
    cases dutyOk d <;> cases rateOk r <;> cases periodOk p r <;> rfl
  · exact .of_accept .enable .normal fun _ => rfl
  · exact .of_accept .disable .normal fun _ => rfl
  · exact .of_accept .setPolarity p fun _ => rfl
  · refine ⟨fun cfg c _ => if c.clkOn then c.clockEdge cfg else some c, fun s => ?_⟩
    simp only [exec, execEdge]
    cases (s.chan ch).clkOn
    · exact congrArg some (s.chans.set_get ch).symm
    · cases (s.chan ch).clockEdge s.cfg <;> rfl

/-- Settles O53: micro-steps by `microStep_chan_ne` and `microStep_chan_self`, operations by their locality. -/
theorem channelsAreIsolated : Obligations.ChannelsAreIsolated := by
  unfold Obligations.ChannelsAreIsolated
  refine ⟨fun s ch ch' hne => microStep_chan_ne hne s, fun s t i ch ch' hi h hne => ?_,
    fun s u ch hcfg hchan hfail => ?_, fun s u t i ch hi hcfg hchan hfail h => ?_⟩
  · obtain ⟨f, hf⟩ := localTo_of_onChannel hi
    have hs := hf s
    rw [h] at hs
    obtain ⟨c, -, hc⟩ := Option.map_eq_some_iff.mp hs.symm
    rw [State.chan, ← hc, PerChan.get_set_ne _ hne, State.chan]
  · rw [microStep_chan_self, microStep_chan_self, hcfg, hchan, hfail]
  · obtain ⟨f, hf⟩ := localTo_of_onChannel hi
    have hs := hf s
    rw [h] at hs
    obtain ⟨c, hc, ht⟩ := Option.map_eq_some_iff.mp hs.symm
    rw [hcfg, hchan, hfail] at hc
    obtain ⟨v, hv, hvc⟩ := chansOf_eq_some ((hf u).trans (congrArg _ hc))
    refine ⟨v, hv, ?_⟩
    rw [State.chan, State.chan, hvc, ← ht, PerChan.get_set_self, PerChan.get_set_self]

theorem microStep_clkFail (ch : Chan) (s : State) :
    (microStep ch s).clkFail = s.clkFail.set ch ((s.chan ch).microFail (s.clkFail.get ch)) := by
  rw [microStep_eq]

/-- Settles O54: each micro-step finds its channel and its answer as they were before the other. -/
theorem channelsCommute : Obligations.ChannelsCommute := by
  unfold Obligations.ChannelsCommute
  intro s a b hab
  have hother {x y : Chan} (h : x ≠ y) : (microStep y s).chan x = s.chan x ∧
      (microStep y s).clkFail.get x = s.clkFail.get x :=
    ⟨microStep_chan_ne h s, by rw [microStep_clkFail, PerChan.get_set_ne _ h]⟩
  have hchans (x : Chan) (u : State) : (microStep x u).chans =
      u.chans.set x ((u.chan x).micro u.cfg (u.cfg.extClk.get x) (u.clkFail.get x)) := by rw [microStep_eq]
  obtain ⟨hac, haf⟩ := hother hab
  obtain ⟨hbc, hbf⟩ := hother hab.symm
  constructor
  · rw [hchans a, hchans b, hchans b, hchans a, hac, haf, hbc, hbf, microStep_cfg, microStep_cfg]
    exact PerChan.set_comm _ hab.symm _ _
  · rw [microStep_clkFail a (microStep b s), microStep_clkFail b (microStep a s), hac, haf, hbc, hbf, microStep_clkFail,
      microStep_clkFail]
    exact PerChan.set_comm _ hab.symm _ _

/-! ## Completion -/

/-- A micro-step completes its command or goes to the next place of the command's sequence. -/
theorem Channel.micro_place (c : Channel) (cfg : Config) (ext fail : Bool) :
    (c.micro cfg ext fail).seq.pc = .idle ∨ (c.micro cfg ext fail).seq.pc.place = c.seq.pc.place + 1 := by
  cases hpc : c.seq.pc <;> simp only [Channel.micro, hpc]
  case cCheck | cClk | eClk => split <;> simp [Seq.finish, MicroState.place]
  all_goals simp [Seq.finish, MicroState.place]

theorem MicroState.place_le (pc : MicroState) : pc.place ≤ 11 := by cases pc <;> decide

theorem MicroState.place_pos {pc : MicroState} (h : pc ≠ .idle) : 0 < pc.place := by
  cases pc
  case idle => exact absurd rfl h
  all_goals exact Nat.succ_pos _

/-- As many micro-steps as lead past place 11 complete a command, by induction on their number. -/
theorem microSteps_complete {ch : Chan} (n : Nat) : ∀ s : State,
    (s.seq ch).pc = .idle ∨ 11 < (s.seq ch).pc.place + n → ((microSteps ch n s).seq ch).pc = .idle := by
  induction n with
  | zero => exact fun s h => h.resolve_right (not_lt.mpr (s.seq ch).pc.place_le)
  | succ n ih =>
    intro s h
    refine ih (microStep ch s) ?_
    rcases h with hidle | hplace
    · rw [microStep_idle (State.busy_eq_false.mpr hidle)]
      exact .inl hidle
    · rw [State.seq, microStep_chan_self]
      refine (Channel.micro_place ..).imp_right fun hnext => ?_
      rw [hnext]
      unfold State.seq at hplace
      omega

/-- Settles O43: a command in progress is at place 1 or later. -/
theorem commandsComplete : Obligations.CommandsComplete := by
  unfold Obligations.CommandsComplete
  intro s ch
  refine State.busy_eq_false.mpr (microSteps_complete 11 s (or_iff_not_imp_left.mpr fun h => ?_))
  have := MicroState.place_pos h
  omega

end Sys2Proof.Machine

/-! PROOFS. The statements of 42_configure and 43_lifecycle on whole commands: CONFIGURE, ENABLE, DISABLE and
SET_POLARITY from acceptance to completion, and TEARDOWN. -/

namespace Sys2Proof.Machine

/-! ## Micro-steps of one channel in a row -/

/-- A channel and its pending answer after `n` of its micro-steps, with the events they append. -/
def Channel.micros (cfg : Config) (ch : Chan) : Nat → Channel → Bool → Channel × Bool × List Event
  | 0, c, fail => (c, fail, [])
  | n + 1, c, fail =>
    let ext := cfg.extClk.get ch
    let (c', fail', es) := Channel.micros cfg ch n (c.micro cfg ext fail) (c.microFail fail)
    (c', fail', c.microEvents cfg ext fail ch ++ es)

/-- Micro-steps of one channel in a row are that channel's, and nothing else of the state changes. -/
theorem microSteps_eq (ch : Chan) (n : Nat) : ∀ s : State, microSteps ch n s = { s with
    chans := s.chans.set ch (Channel.micros s.cfg ch n (s.chan ch) (s.clkFail.get ch)).1
    clkFail := s.clkFail.set ch (Channel.micros s.cfg ch n (s.chan ch) (s.clkFail.get ch)).2.1
    trace := s.trace ++ (Channel.micros s.cfg ch n (s.chan ch) (s.clkFail.get ch)).2.2 } := by
  induction n with
  | zero =>
    intro s
    simp [microSteps, Channel.micros, State.chan]
  | succ n ih =>
    intro s
    rw [microSteps, ih, microStep_eq]
    simp [Channel.micros, State.chan]

/-- The exponent of a period in the contract fits its working register (43_lifecycle R160). -/
theorem exponent_toNat {p : Nat} (h : p < 2 ^ 32) :
    exponent p ≤ 16 ∧ (BitVec.ofNat 5 (exponent p)).toNat = exponent p := by
  obtain ⟨-, -, -, -, -, hmax⟩ := exponentIsLeast p
  have he := hmax h
  exact ⟨he, Nat.mod_eq_of_lt (by omega)⟩

section
variable {s : State} {ch : Chan}

/-- An ENABLE in its first micro-state, with a clock that starts (R161 to R163). -/
theorem micros_enable (cfg : Config) {c : Channel} (hpc : c.seq.pc = .eClk) :
    Channel.micros cfg ch 3 c false =
      ({ c with
          cntCtrl := enableVal cfg c.cntCtrl &&& cfg.cntImplMask
          clkOn := true
          phase := .enabled
          seq := { c.seq with x := c.cntCtrl, status := .ok, pc := .idle } }, false,
        [.acc .R c.cntCtrl ch .cntCtrl, .acc .W (enableVal cfg c.cntCtrl) ch .cntCtrl, .done ch c.seq.op .ok]) := by
  simp [Channel.micros, Channel.micro, Channel.microEvents, Channel.microFail, hpc, Seq.finish]

/-- A DISABLE in its first micro-state, whatever the clock would answer (R165 to R167). -/
theorem micros_disable (cfg : Config) {c : Channel} (hpc : c.seq.pc = .dRd) (fail : Bool) :
    Channel.micros cfg ch 3 c fail =
      ({ c with
          cntCtrl := disableVal cfg c.cntCtrl &&& cfg.cntImplMask
          clkOn := false
          phase := .disabled
          seq := { c.seq with x := c.cntCtrl, status := .ok, pc := .idle } }, fail,
        [.acc .R c.cntCtrl ch .cntCtrl, .acc .W (disableVal cfg c.cntCtrl) ch .cntCtrl, .done ch c.seq.op .ok]) := by
  simp [Channel.micros, Channel.micro, Channel.microEvents, Channel.microFail, hpc, Seq.finish]

/-- A CONFIGURE in its first micro-state, its period in order and a clock that starts (R136 to R146). -/
theorem micros_configure (cfg : Config) {c : Channel} {pc dc e : Nat} {clk : Word} (hpc : c.seq.pc = .cCheck)
    (hp : 0 ≤ c.seq.periodNs.toInt) (hpt : pc = ticks c.seq.periodNs.toNat c.seq.rateHz.toNat) (hlt : pc < 2 ^ 32)
    (hdt : dc = ticks c.seq.dutyNs.toNat c.seq.rateHz.toNat) (he : e = exponent pc)
    (hclk : clk = clkval cfg c.clkCtrl e (cfg.extClk.get ch)) :
    Channel.micros cfg ch 11 c false =
      ({ c with
          clkCtrl := clk &&& cfg.clkImplMask
          cntCtrl := cntval cfg c.cntCtrl c.pol &&& cfg.cntImplMask
          interval := threshold pc e
          match1 := threshold dc e
          clkOn := true
          last := some { e := BitVec.ofNat 5 e, intervalCount := threshold pc e, matchCount := threshold dc e }
          phase := configuredPhase c.phase
          seq := { c.seq with
            x0 := c.cntCtrl, y := c.clkCtrl, pclk := BitVec.ofNat 64 pc, dclk := BitVec.ofNat 64 dc
            e := BitVec.ofNat 5 e, icnt := threshold pc e, mcnt := threshold dc e, status := .ok, pc := .idle } },
        false,
        [.acc .R c.cntCtrl ch .cntCtrl, .acc .W (quiesceVal cfg c.cntCtrl) ch .cntCtrl, .acc .R c.clkCtrl ch .clkCtrl,
         .acc .W clk ch .clkCtrl, .acc .W ((threshold pc e).setWidth 32) ch .interval,
         .acc .W ((threshold dc e).setWidth 32) ch .match1, .acc .W (cntval cfg c.cntCtrl c.pol) ch .cntCtrl,
         .done ch c.seq.op .ok]) := by
  have hp64 : (BitVec.ofNat 64 pc).toNat = pc := Nat.mod_eq_of_lt (by omega)
  obtain ⟨-, he5⟩ := exponent_toNat hlt
  rw [← he] at he5
  simp only [Channel.micros, Channel.micro, Channel.microEvents, Channel.microFail, hpc, Seq.finish,
    if_neg (not_lt.mpr hp), ← hpt, ← hdt, ← he, ← hclk, hp64, he5, Bool.false_eq_true, if_false, List.nil_append,
    List.append_nil, List.cons_append]

/-- A SET_POLARITY in its one micro-state (R169). -/
theorem micros_setPolarity (cfg : Config) {c : Channel} (hpc : c.seq.pc = .pSet) (fail : Bool) :
    Channel.micros cfg ch 1 c fail =
      ({ c with pol := c.seq.polArg, seq := { c.seq with status := .ok, pc := .idle } }, fail,
        [.done ch c.seq.op .ok]) := by
  simp [Channel.micros, Channel.micro, Channel.microEvents, Channel.microFail, hpc, Seq.finish]

/-- What the micro-steps of a command leave of the machine that accepted it, read off those of its channel. -/
theorem microSteps_of_accepted {q : Seq} {n : Nat} {fail fail' : Bool} {c' : Channel} {es : List Event}
    (hf : s.clkFail.get ch = fail) (h : Channel.micros s.cfg ch n { s.chan ch with seq := q } fail = (c', fail', es)) :
    microSteps ch n (s.setSeq ch q).consume = { s with
      chans := s.chans.set ch c', clkFail := s.clkFail.set ch fail', trace := s.trace ++ es
      script := s.script.tail } := by
  rw [microSteps_eq, State.chan_consume, State.chan_setSeq_self, State.consume_clkFail, State.setSeq_clkFail,
    State.consume_cfg, State.setSeq_cfg, hf, h]
  simp [State.consume, State.setSeq, State.setChan]

end

/-! ## The statements -/

/-- Settles O45: the three micro-steps of ENABLE. -/
theorem enableSequence : Obligations.EnableSequence := by
  unfold Obligations.EnableSequence
  intro s ch v hb hf hv
  obtain rfl : v = enableVal s.cfg (s.chan ch).cntCtrl := hv
  refine ⟨_, exec_enable_of_idle hb, ?_⟩
  rw [microSteps_of_accepted hf (micros_enable s.cfg rfl)]
  simp [State.seq, State.chan, latch]

/-- The machine after a DISABLE on an idle channel: one channel is disabled, with the event of its read, of its write
and of its completion. -/
theorem microSteps_disable (s : State) (ch : Chan) :
    microSteps ch 3 (s.setSeq ch (latch (s.seq ch) .disable .normal)).consume = { s with
      chans := s.chans.set ch { s.chan ch with
        cntCtrl := disableVal s.cfg (s.chan ch).cntCtrl &&& s.cfg.cntImplMask
        clkOn := false
        phase := .disabled
        seq := { latch (s.seq ch) .disable .normal with x := (s.chan ch).cntCtrl, status := .ok, pc := .idle } }
      trace := s.trace ++ [.acc .R (s.chan ch).cntCtrl ch .cntCtrl,
        .acc .W (disableVal s.cfg (s.chan ch).cntCtrl) ch .cntCtrl, .done ch .disable .ok]
      script := s.script.tail } := by
  rw [microSteps_of_accepted rfl (micros_disable s.cfg rfl _)]
  simp [latch]

theorem exec_disable_of_idle {s : State} {ch : Chan} (hb : s.busy ch = false) :
    exec (.disable ch) s = .next (s.setSeq ch (latch (s.seq ch) .disable .normal)).consume :=
  congrArg _ (accept_of_idle hb .disable .normal)

/-- Settles O46: the three micro-steps of DISABLE. -/
theorem disableSequence : Obligations.DisableSequence := by
  unfold Obligations.DisableSequence
  intro s ch v hb hv
  obtain rfl : v = disableVal s.cfg (s.chan ch).cntCtrl := hv
  refine ⟨_, exec_disable_of_idle hb, ?_⟩
  rw [microSteps_disable]
  simp [State.seq, State.chan]

/-- A DISABLE run to completion, seen from the channels. -/
theorem chan_of_disable {s t : State} {ch : Chan} (hb : s.busy ch = false) (h : exec (.disable ch) s = .next t) :
    (microSteps ch 3 t).cfg = s.cfg ∧ (microSteps ch 3 t).busy ch = false ∧
    (∀ ch', ch' ≠ ch → (microSteps ch 3 t).chan ch' = s.chan ch') ∧
    ∃ q, (microSteps ch 3 t).chan ch = { s.chan ch with
      cntCtrl := disableVal s.cfg (s.chan ch).cntCtrl &&& s.cfg.cntImplMask
      clkOn := false, phase := .disabled, seq := q } := by
  obtain rfl := outcome_next_inj ((exec_disable_of_idle hb).symm.trans h)
  rw [microSteps_disable]
  refine ⟨rfl, ?_, fun ch' hne => PerChan.get_set_ne _ hne _, _, PerChan.get_set_self _ _ _⟩
  simp [State.busy, State.seq, State.chan]

/-- Setting the two disable bits of a stored value that has them set stores the same value. -/
theorem disableVal_stored (cfg : Config) (w : Word) :
    disableVal cfg (disableVal cfg w &&& cfg.cntImplMask) &&& cfg.cntImplMask =
      disableVal cfg w &&& cfg.cntImplMask := by
  refine word_ext fun i => ?_
  simp only [disableVal, setBit, testBit_and, testBit_or]
  cases testBit cfg.cntImplMask i
  · simp only [Bool.and_false]
  · simp only [Bool.and_true]
    cases testBit (bitMask cfg.cnt.dis) i <;> cases testBit (bitMask cfg.cnt.waveDis) i <;> simp

/-- Settles O47: the second DISABLE reads the value the first stored, and stores it again. -/
theorem disableIsIdempotent : Obligations.DisableIsIdempotent := by
  unfold Obligations.DisableIsIdempotent
  intro s t u ch _ hb ht hu
  obtain ⟨hcfg, hb', -, q, hc⟩ := chan_of_disable hb ht
  obtain ⟨-, -, hothers, q', hc'⟩ := chan_of_disable hb' hu
  refine ⟨hothers, q', ?_⟩
  rw [hc', hcfg, hc, disableVal_stored]

/-- Settles O48: the one micro-step of SET_POLARITY; the pin is a function of what it leaves alone. -/
theorem setPolarityOnlyLatches : Obligations.SetPolarityOnlyLatches := by
  unfold Obligations.SetPolarityOnlyLatches
  intro s ch p hb
  refine ⟨_, congrArg Host.Outcome.next (accept_of_idle hb .setPolarity p), ?_⟩
  have hu : microStep ch (s.setSeq ch (latch (s.seq ch) .setPolarity p)).consume = _ :=
    microSteps_of_accepted (n := 1) rfl (micros_setPolarity s.cfg rfl _)
  rw [hu]
  simp [State.waveOut, State.seq, State.chan, latch]

/-- Settles O40: the eleven micro-steps of CONFIGURE. -/
theorem configureSequence : Obligations.ConfigureSequence := by
  unfold Obligations.ConfigureSequence
  intro s ch d p r e pc dc clk _ hb hd hr hp hf hpc hlt hdc he hclk
  refine ⟨_, exec_configure_of_contract hb hd hr fun _ => lt_of_eq_of_lt hpc.symm hlt, ?_⟩
  have hu : microSteps ch 11 (s.setSeq ch { latch (s.seq ch) .configure .normal with
      dutyNs := d, periodNs := p, rateHz := r }).consume = _ :=
    microSteps_of_accepted hf (micros_configure s.cfg rfl hp hpc hlt hdc he hclk)
  rw [hu, configuredPhase_eq_ite, quiesceVal_eq_or]
  simp [State.seq, State.chan, latch]

/-! ## TEARDOWN -/

theorem advances_add (m n : Nat) : ∀ s, advances (m + n) s = advances n (advances m s) := by
  induction m with
  | zero => exact fun s => by rw [Nat.zero_add]; rfl
  | succ m ih => exact fun s => by rw [Nat.succ_add]; exact ih (advance s)

/-- An await item runs its sequencer until it is idle, and is then consumed (30_encoding R71): one step for each
micro-step and one for itself. -/
theorem advances_await {ch : Chan} {rest : List Item} (n : Nat) : ∀ s : State, s.Unstopped →
    s.script = .cue (.await ch) :: rest → (∀ k < n, (microSteps ch k s).busy ch = true) →
    (microSteps ch n s).busy ch = false → advances (n + 1) s = { microSteps ch n s with script := rest } := by
  induction n with
  | zero =>
    intro s hs hscript _ hidle
    have hstep := step_await hs hscript
    rw [if_neg (by simpa [microSteps] using hidle)] at hstep
    exact advance_of_next hstep
  | succ n ih =>
    intro s hs hscript hbusy hidle
    have hstep := step_await hs hscript
    have hb : s.busy ch = true := hbusy 0 n.succ_pos
    rw [if_pos hb] at hstep
    rw [advances, advance_of_next hstep]
    exact ih (microStep ch s) (by simpa [State.Unstopped] using hs) (by simpa using hscript)
      (fun k hk => hbusy (k + 1) (Nat.succ_lt_succ hk)) hidle

/-- A channel as DISABLE leaves it: idle, stopped, disconnected, unclocked and `Disabled`. -/
structure TornDown (cfg : Config) (c : Channel) : Prop where
  idle : c.seq.pc = .idle
  dis : dis cfg c.cntCtrl = true
  waveDis : waveDis cfg c.cntCtrl = true
  clock : c.clkOn = false
  phase : c.phase = .disabled

/-- DISABLE's value has both disable bits set. -/
theorem stopped_disableVal {cfg : Config} (h : cfg.CntOk) (w : Word) : Stopped cfg (disableVal cfg w) := by
  have hd : cfg.cnt.dis < 32 := cnt_lt h (by simp [CntLayout.bits])
  have hw : cfg.cnt.waveDis < 32 := cnt_lt h (by simp [CntLayout.bits])
  constructor
  · rw [dis, disableVal, testBit_setBit, testBit_setBit_self _ hd, Bool.true_or]
  · rw [waveDis, disableVal, testBit_setBit_self _ hw]

/-- The register after DISABLE's write has both disable bits set. -/
theorem stopped_disabled {cfg : Config} (h : cfg.CntOk) (w : Word) :
    Stopped cfg (disableVal cfg w &&& cfg.cntImplMask) := by
  obtain ⟨hdis, hwave, -⟩ := fields_and_mask h (disableVal cfg w)
  exact (stopped_disableVal h w).imp hdis.trans hwave.trans

/-- A DISABLE line of the script, on an idle channel: five steps, which consume it. -/
theorem advances_disable {s : State} {ch : Chan} {rest : List Item} (hw : s.cfg.WellFormed) (hs : s.Unstopped)
    (hscript : s.script = scriptLine s.cfg (.disable ch) ++ rest) (hb : s.busy ch = false) :
    (advances 5 s).cfg = s.cfg ∧ (advances 5 s).Unstopped ∧ (advances 5 s).script = rest ∧
    TornDown s.cfg ((advances 5 s).chan ch) ∧ ∀ ch', ch' ≠ ch → (advances 5 s).chan ch' = s.chan ch' := by
  obtain ⟨t, ht⟩ : ∃ t, t = (s.setSeq ch (latch (s.seq ch) .disable .normal)).consume := ⟨_, rfl⟩
  have hexec : exec (.disable ch) s = .next t := ht ▸ exec_disable_of_idle hb
  have hfetch : fetch s = some (.instr (.disable ch)) :=
    (fetch_of_script_cons hscript).trans (congrArg some (decodeEncodeAgree _ _ hw))
  have hstep : step s = .next t := (step_of_fetch_instr hs hfetch).trans hexec
  have hbusy : ∀ k < 3, (microSteps ch k t).busy ch = true := by
    intro k hk
    rw [microSteps_eq, ht]
    interval_cases k <;>
      simp [State.busy, State.seq, State.chan, Channel.micros, Channel.micro, latch, firstMicroState, State.setSeq]
  obtain ⟨hcfg, hidle, hothers, q, hc⟩ := chan_of_disable hb hexec
  have hrun : advances 5 s = { microSteps ch 3 t with script := rest } := by
    rw [advances, advance_of_next hstep]
    refine advances_await 3 t (ht ▸ hs) ?_ hbusy hidle
    rw [ht, State.consume_script, State.setSeq_script, hscript]
    rfl
  have hus : (microSteps ch 3 t).Unstopped := by
    rw [microSteps_eq, ht]
    exact hs
  obtain ⟨hdis, hwave⟩ := stopped_disabled hw.cntOk (s.chan ch).cntCtrl
  have hchan (x : Chan) : (advances 5 s).chan x = (microSteps ch 3 t).chan x := by rw [hrun]; rfl
  rw [hchan]
  rw [hrun]
  refine ⟨hcfg, hus, rfl, ⟨State.busy_eq_false.mp hidle, ?_, ?_, ?_, ?_⟩, hothers⟩ <;> rw [hc]
  · exact hdis
  · exact hwave

/-- DISABLE lines for a list of channels on an idle machine: the machine is idle again, and each of those channels is as
DISABLE leaves it, by induction on the list. -/
theorem advances_disables {rest : List Item} (chs : List Chan) : ∀ s : State, s.cfg.WellFormed → s.Unstopped →
    s.script = chs.flatMap (fun ch => scriptLine s.cfg (.disable ch)) ++ rest → (∀ ch, s.busy ch = false) →
    (advances (5 * chs.length) s).Unstopped ∧ (advances (5 * chs.length) s).script = rest ∧
    (∀ ch, (advances (5 * chs.length) s).busy ch = false) ∧
    ∀ ch, ch ∈ chs ∨ TornDown s.cfg (s.chan ch) → TornDown s.cfg ((advances (5 * chs.length) s).chan ch) := by
  induction chs with
  | nil => exact fun s _ hs hscript hidle => ⟨hs, hscript, hidle, fun ch h => h.resolve_left List.not_mem_nil⟩
  | cons ch chs ih =>
    intro s hw hs hscript hidle
    rw [List.flatMap_cons, List.append_assoc] at hscript
    obtain ⟨hcfg, hs', hscript', htorn, hkept⟩ := advances_disable hw hs hscript (hidle ch)
    have hidle' (x : Chan) : (advances 5 s).busy x = false := by
      by_cases hx : x = ch
      · exact State.busy_eq_false.mpr (hx ▸ htorn.idle)
      · rw [State.busy, State.seq, hkept x hx]
        exact hidle x
    have hnext := ih (advances 5 s) (hcfg ▸ hw) hs' (by rw [hscript', hcfg]) hidle'
    rw [hcfg] at hnext
    obtain ⟨hsEnd, hscriptEnd, hidleEnd, htornEnd⟩ := hnext
    rw [List.length_cons, Nat.mul_succ, Nat.add_comm, advances_add]
    refine ⟨hsEnd, hscriptEnd, hidleEnd, fun x hx => htornEnd x ?_⟩
    by_cases hxc : x = ch
    · exact .inr (hxc ▸ htorn)
    · rw [hkept x hxc]
      exact hx.imp_left fun h => (List.mem_cons.mp h).resolve_left hxc

/-- Settles O49: one step for the expansion, and five for each of its three DISABLE lines. -/
theorem teardownDisablesEveryChannel : Obligations.TeardownDisablesEveryChannel := by
  unfold Obligations.TeardownDisablesEveryChannel
  intro s rest hw hs hscript hidle
  have hexec : exec .teardown s = .next { s with script := teardownScript s.cfg ++ rest } := by
    rw [exec, execTeardown, hscript, List.tail_cons]
  have hstart : advance s = { s with script := teardownScript s.cfg ++ rest } :=
    advance_of_next ((step_of_fetch_instr hs (fetch_of_script_cons hscript)).trans hexec)
  obtain ⟨hsEnd, hscriptEnd, hidleEnd, htornEnd⟩ := advances_disables (rest := rest) [.c0, .c1, .c2]
    { s with script := teardownScript s.cfg ++ rest } hw hs rfl hidle
  refine ⟨hexec, ?_⟩
  rw [show 16 = 1 + 5 * [Chan.c0, .c1, .c2].length from rfl, advances_add, show advances 1 s = _ from hstart]
  refine ⟨hscriptEnd, hsEnd, fun ch => ?_⟩
  have htorn := htornEnd ch (.inl (by cases ch <;> decide))
  exact ⟨hidleEnd ch, htorn.dis, htorn.waveDis, htorn.clock, htorn.phase⟩

end Sys2Proof.Machine

/-! PROOFS. The invariant of the machine: it holds at reset (10_state R30) and every step keeps it. -/

namespace Sys2Proof.Machine

/-! ## Reset -/

theorem Channel.reset_inv {cfg : Config} (h : cfg.CntOk) (ext : Bool) : ChannelInv cfg ext (Channel.reset cfg) := by
  have hzero (m : Word) : (0 : Word) &&& ~~~m = 0 := BitVec.zero_and
  have hdis := cnt_mask h (b := cfg.cnt.dis) (by simp [CntLayout.bits])
  have hwave := cnt_mask h (b := cfg.cnt.waveDis) (by simp [CntLayout.bits])
  exact .ofIdle (hzero _) (masked_setBit (masked_setBit (hzero _) hdis) hwave) nofun rfl

theorem State.resetWith_inv {cfg : Config} (h : cfg.WellFormed) : (State.resetWith cfg).Inv :=
  ⟨h, fun ch => by
    rw [State.chan_resetWith]
    exact Channel.reset_inv h.cntOk _⟩

/-- Settles O56: an idle channel, whose registers are 0 but for two implemented bits. -/
theorem invariantAtReset : Obligations.InvariantAtReset := by
  unfold Obligations.InvariantAtReset
  have hdefault : Config.default.WellFormed := by decide
  exact ⟨fun cfg => State.resetWith_inv, hdefault, State.resetWith_inv hdefault⟩

/-! ## Facts the micro-steps establish -/

/-- The quiesce value of a stored `X0` is stored whole. -/
theorem quiesceVal_and_mask {cfg : Config} (h : cfg.CntOk) {x0 : Word} (hx : x0 &&& ~~~cfg.cntImplMask = 0) :
    quiesceVal cfg x0 &&& cfg.cntImplMask = quiesceVal cfg x0 :=
  masked_eq (masked_setBit hx (cnt_mask h (by simp [CntLayout.bits])))

/-- A word that is not negative is below 2^31. -/
theorem toNat_lt_of_toInt_nonneg {w : Word} (h : 0 ≤ w.toInt) : w.toNat < 2 ^ 31 := by
  have := BitVec.toInt_eq_toNat_cond w
  have := w.isLt
  omega

/-- The tick counts of operands in the contract fit their working registers (42_configure R131). -/
theorem ticks_toNat {ns rate : Word} (h : 0 ≤ ns.toInt) :
    (BitVec.ofNat 64 (ticks ns.toNat rate.toNat)).toNat = ticks ns.toNat rate.toNat := by
  obtain ⟨-, -, -, hexact⟩ := ticksAreExact ns.toNat rate.toNat (toNat_lt_of_toInt_nonneg h) rate.isLt
  exact hexact

/-! ## The facts of a CONFIGURE in progress -/

/-- What the invariant says of a CONFIGURE whose next micro-step is the `n`-th. The places are compared by `Nat.ble` and
`Nat.beq`, which compute: a fact that a micro-step does not touch is the same proposition before and after it. -/
structure ConfigureAt (cfg : Config) (ext : Bool) (c : Channel) (n : Nat) : Prop where
  opLatched : c.seq.op = .configure
  contract : dutyOk c.seq.dutyNs = true ∧ rateOk c.seq.rateHz = true ∧ periodOk c.seq.periodNs c.seq.rateHz = true
  periodNonneg : Nat.ble 2 n → 0 ≤ c.seq.periodNs.toInt
  clockFirst : Nat.ble 3 n → c.clkOn = true
  x0Read : Nat.beq n 4 → SameButRst cfg c.seq.x0 c.cntCtrl
  x0Masked : Nat.ble 4 n → c.seq.x0 &&& ~~~cfg.cntImplMask = 0
  quiesced : Nat.ble 5 n → SameButRst cfg c.cntCtrl (quiesceVal cfg c.seq.x0)
  periodTicks : Nat.ble 6 n → c.seq.pclk.toNat = ticks c.seq.periodNs.toNat c.seq.rateHz.toNat ∧
    c.seq.e.toNat = exponent c.seq.pclk.toNat ∧ c.seq.e.toNat ≤ 16
  yRead : Nat.beq n 7 → c.seq.y = c.clkCtrl
  clkWritten : Nat.ble 8 n → c.clkCtrl = clkval cfg c.seq.y c.seq.e.toNat ext &&& cfg.clkImplMask
  thresholds : Nat.ble 9 n → c.seq.dclk.toNat = ticks c.seq.dutyNs.toNat c.seq.rateHz.toNat ∧
    c.seq.icnt = threshold c.seq.pclk.toNat c.seq.e.toNat ∧ c.seq.mcnt = threshold c.seq.dclk.toNat c.seq.e.toNat
  intervalWritten : Nat.ble 10 n → c.interval = c.seq.icnt
  matchWritten : Nat.ble 11 n → c.match1 = c.seq.mcnt

section
variable {cfg : Config} {ext : Bool} {c : Channel}

theorem ChannelInv.configureAt (h : ChannelInv cfg ext c) {pc : MicroState} (hpc : c.seq.pc = pc)
    (hc : pc.command = some .configure) : ConfigureAt cfg ext c pc.place := by
  subst hpc
  have hfrom {k : Nat} (hk : Nat.ble k c.seq.pc.place) : c.seq.ConfigureFrom k := ⟨hc, Nat.le_of_ble_eq_true hk⟩
  have hpos : 1 ≤ c.seq.pc.place := MicroState.place_pos fun hi => by simp [hi, MicroState.command] at hc
  exact {
    opLatched := h.opLatched _ hc
    contract := h.contract ⟨hc, hpos⟩
    periodNonneg := fun hk => h.periodNonneg (hfrom hk)
    clockFirst := fun hk => h.clockFirst (.inl (hfrom hk))
    x0Read := fun hk => h.x0Read (by cases hp : c.seq.pc <;> simp_all [MicroState.command, MicroState.place])
    x0Masked := fun hk => h.x0Masked (hfrom hk)
    quiesced := fun hk => h.quiesced (hfrom hk)
    periodTicks := fun hk => h.periodTicks (hfrom hk)
    yRead := fun hk => h.yRead (by cases hp : c.seq.pc <;> simp_all [MicroState.command, MicroState.place])
    clkWritten := fun hk => h.clkWritten (hfrom hk)
    thresholds := fun hk => h.thresholds (hfrom hk)
    intervalWritten := fun hk => h.intervalWritten (hfrom hk)
    matchWritten := fun hk => h.matchWritten (hfrom hk) }

theorem ChannelInv.ofConfigureAt (hclk : c.clkCtrl &&& ~~~cfg.clkImplMask = 0)
    (hcnt : c.cntCtrl &&& ~~~cfg.cntImplMask = 0) (hlast : ∀ a, c.last = some a → a.e.toNat ≤ 16)
    (hc : c.seq.pc.command = some .configure) (h : ConfigureAt cfg ext c c.seq.pc.place) : ChannelInv cfg ext c where
  clkMasked := hclk
  cntMasked := hcnt
  lastRange := hlast
  opLatched op ho := h.opLatched.trans (Option.some.inj (hc.symm.trans ho))
  contract _ := h.contract
  periodNonneg hq := h.periodNonneg (Nat.ble_eq_true_of_le hq.2)
  clockFirst hq := by
    obtain hq | he | he := hq
    · exact h.clockFirst (Nat.ble_eq_true_of_le hq.2)
    · simp [he, MicroState.command] at hc
    · simp [he, MicroState.command] at hc
  x0Read hp := h.x0Read (by rw [hp]; rfl)
  x0Masked hq := h.x0Masked (Nat.ble_eq_true_of_le hq.2)
  quiesced hq := h.quiesced (Nat.ble_eq_true_of_le hq.2)
  periodTicks hq := h.periodTicks (Nat.ble_eq_true_of_le hq.2)
  yRead hp := h.yRead (by rw [hp]; rfl)
  clkWritten hq := h.clkWritten (Nat.ble_eq_true_of_le hq.2)
  thresholds hq := h.thresholds (Nat.ble_eq_true_of_le hq.2)
  intervalWritten hq := h.intervalWritten (Nat.ble_eq_true_of_le hq.2)
  matchWritten hq := h.matchWritten (Nat.ble_eq_true_of_le hq.2)
  xRead hp := by rcases hp with hp | hp <;> simp [hp, MicroState.command] at hc
  writtenBeforeClockOff hp := by simp [hp, MicroState.command] at hc

/-- The invariant of an ENABLE, a DISABLE or a SET_POLARITY in progress. -/
theorem ChannelInv.ofShort (hclk : c.clkCtrl &&& ~~~cfg.clkImplMask = 0) (hcnt : c.cntCtrl &&& ~~~cfg.cntImplMask = 0)
    (hlast : ∀ a, c.last = some a → a.e.toNat ≤ 16) {op : Command} (hc : c.seq.pc.command = some op)
    (hne : op ≠ .configure) (hop : c.seq.op = op) (hclock : c.seq.pc = .eRd ∨ c.seq.pc = .eWr → c.clkOn = true)
    (hx : c.seq.pc = .eWr ∨ c.seq.pc = .dWr → SameButRst cfg c.seq.x c.cntCtrl)
    (hoff : c.seq.pc = .dClkoff → dis cfg c.cntCtrl = true ∧ waveDis cfg c.cntCtrl = true) : ChannelInv cfg ext c := by
  have hno {k : Nat} (hq : c.seq.ConfigureFrom k) : False := hne (Option.some.inj (hc.symm.trans hq.1))
  have hpc {pc : MicroState} (h : c.seq.pc = pc) (hcmd : pc.command = some .configure) : False :=
    hne (Option.some.inj (hc.symm.trans (h ▸ hcmd)))
  exact {
    clkMasked := hclk
    cntMasked := hcnt
    lastRange := hlast
    opLatched := fun op' ho => hop.trans (Option.some.inj (hc.symm.trans ho))
    contract := fun hq => (hno hq).elim
    periodNonneg := fun hq => (hno hq).elim
    clockFirst := fun hq => hclock (hq.resolve_left hno)
    x0Read := fun hp => (hpc hp rfl).elim
    x0Masked := fun hq => (hno hq).elim
    quiesced := fun hq => (hno hq).elim
    periodTicks := fun hq => (hno hq).elim
    yRead := fun hp => (hpc hp rfl).elim
    clkWritten := fun hq => (hno hq).elim
    thresholds := fun hq => (hno hq).elim
    intervalWritten := fun hq => (hno hq).elim
    matchWritten := fun hq => (hno hq).elim
    xRead := hx
    writtenBeforeClockOff := hoff }

/-! ## The moves of one channel -/

/-- A micro-step keeps the invariant: a command that completes leaves an idle channel, and one that goes on keeps the
facts it has read and written, and establishes the next one. -/
theorem Channel.micro_inv (h : ChannelInv cfg ext c) (hw : cfg.WellFormed) (fail : Bool) :
    ChannelInv cfg ext (c.micro cfg ext fail) := by
  have hcnt := hw.cntOk
  have hclkM := h.clkMasked
  have hcntM := h.cntMasked
  have hlast := h.lastRange
  cases hpc : c.seq.pc <;> simp only [Channel.micro, hpc]
  case idle => exact h
  case cCheck =>
    split
    · exact .ofIdle hclkM hcntM hlast rfl
    · rename_i hneg
      exact .ofConfigureAt hclkM hcntM hlast rfl { h.configureAt hpc rfl with periodNonneg := fun _ => not_lt.mp hneg }
  case cClk =>
    split
    · exact .ofIdle hclkM hcntM hlast rfl
    · exact .ofConfigureAt hclkM hcntM hlast rfl { h.configureAt hpc rfl with clockFirst := fun _ => rfl }
  case cRdCnt =>
    exact .ofConfigureAt hclkM hcntM hlast rfl { h.configureAt hpc rfl with
      x0Read := fun _ => rfl, x0Masked := fun _ => hcntM, quiesced := nofun }
  case cWrQuiesce =>
    have hf := h.configureAt hpc rfl
    have hx0 := hf.x0Masked rfl
    rw [quiesceVal_and_mask hcnt hx0]
    exact .ofConfigureAt hclkM (masked_setBit hx0 (cnt_mask hcnt (by simp [CntLayout.bits]))) hlast rfl { hf with
      x0Read := nofun, quiesced := fun _ => rfl }
  case cCalcP =>
    have hf := h.configureAt hpc rfl
    obtain ⟨-, -, hperiod⟩ := hf.contract
    have hp := hf.periodNonneg rfl
    have hticks := ticks_toNat hp (rate := c.seq.rateHz)
    obtain ⟨he, hstored⟩ := exponent_toNat (periodOk_iff.mp hperiod hp)
    exact .ofConfigureAt hclkM hcntM hlast rfl { hf with
      periodTicks := fun _ => ⟨hticks, hstored.trans (congrArg exponent hticks.symm), hstored.trans_le he⟩
      clkWritten := nofun, thresholds := nofun }
  case cRdClk =>
    exact .ofConfigureAt hclkM hcntM hlast rfl { h.configureAt hpc rfl with
      yRead := fun _ => rfl, clkWritten := nofun }
  case cWrClk =>
    exact .ofConfigureAt (masked_and _ _) hcntM hlast rfl { h.configureAt hpc rfl with
      yRead := nofun, clkWritten := fun _ => rfl }
  case cCalcD =>
    have hf := h.configureAt hpc rfl
    obtain ⟨hduty, -, -⟩ := hf.contract
    have hticks := ticks_toNat (dutyOk_iff.mp hduty) (rate := c.seq.rateHz)
    exact .ofConfigureAt hclkM hcntM hlast rfl { hf with
      thresholds := fun _ => ⟨hticks, rfl, by rw [hticks]⟩
      intervalWritten := nofun, matchWritten := nofun }
  case cWrInt =>
    exact .ofConfigureAt hclkM hcntM hlast rfl { h.configureAt hpc rfl with intervalWritten := fun _ => rfl }
  case cWrM1 =>
    exact .ofConfigureAt hclkM hcntM hlast rfl { h.configureAt hpc rfl with matchWritten := fun _ => rfl }
  case cWrRestore =>
    obtain ⟨-, -, he⟩ := (h.configureAt hpc rfl).periodTicks rfl
    exact .ofIdle hclkM (masked_and _ _) (fun a ha => Option.some.inj ha ▸ he) rfl
  case eClk =>
    split
    · exact .ofIdle hclkM hcntM hlast rfl
    · exact .ofShort hclkM hcntM hlast rfl (by decide) (h.opLatched _ (by rw [hpc]; rfl))
        (fun _ => rfl) (by simp) (by simp)
  case eRd =>
    exact .ofShort hclkM hcntM hlast rfl (by decide) (h.opLatched _ (by rw [hpc]; rfl))
      (fun _ => h.clockFirst (.inr (.inl hpc))) (fun _ => rfl) (by simp)
  case eWr => exact .ofIdle hclkM (masked_and _ _) hlast rfl
  case dRd =>
    exact .ofShort hclkM hcntM hlast rfl (by decide) (h.opLatched _ (by rw [hpc]; rfl)) (by simp)
      (fun _ => rfl) (by simp)
  case dWr =>
    exact .ofShort hclkM (masked_and _ _) hlast rfl (by decide) (h.opLatched _ (by rw [hpc]; rfl)) (by simp) (by simp)
      (fun _ => stopped_disabled hcnt _)
  case dClkoff | pSet => exact .ofIdle hclkM hcntM hlast rfl

/-- A clock edge writes no more of a control register than its reset request. -/
theorem Channel.clockEdge_inv {c' : Channel} (h : ChannelInv cfg ext c) (hw : cfg.WellFormed)
    (hc : c.clockEdge cfg = some c') : ChannelInv cfg ext c' := by
  obtain ⟨k, p, a, w, rfl, hw'⟩ := Channel.clockEdge_frame hc
  have hsame := sameButRst_of_edge hw'
  obtain ⟨hdis, hwave, -⟩ := fields_of_sameButRst hw.cntOk hsame
  have hmasked : w &&& ~~~cfg.cntImplMask = 0 := by
    rcases hw' with rfl | rfl
    · exact h.cntMasked
    · exact masked_clearBit h.cntMasked
  exact { h with
    cntMasked := hmasked
    x0Read := fun hp => (h.x0Read hp).trans hsame.symm
    quiesced := fun hq => hsame.trans (h.quiesced hq)
    xRead := fun hp => (h.xRead hp).trans hsame.symm
    writtenBeforeClockOff := fun hp => (h.writtenBeforeClockOff hp).imp hdis.trans hwave.trans }

/-- A raw write is on an idle channel and stores implemented bits only. -/
theorem Channel.writeReg_inv (h : ChannelInv cfg ext c) (hb : c.seq.pc = .idle) (r : Reg) (v : Word) :
    ChannelInv cfg ext (c.writeReg cfg r v) := by
  have hlast := h.lastRange
  cases r
  case clkCtrl => exact .ofIdle (masked_and _ _) h.cntMasked hlast hb
  case cntCtrl => exact .ofIdle h.clkMasked (masked_and _ _) hlast hb
  all_goals exact .ofIdle h.clkMasked h.cntMasked hlast hb

/-- An accepted command is in its first micro-state. -/
theorem Channel.latch_inv (h : ChannelInv cfg ext c) {op : Command} (ho : op ≠ .configure) (p : Polarity) :
    ChannelInv cfg ext { c with seq := latch c.seq op p } := by
  have hlast := h.lastRange
  cases op
  case configure => exact absurd rfl ho
  all_goals
    refine .ofShort h.clkMasked h.cntMasked hlast rfl ho rfl ?_ ?_ ?_ <;> simp [latch, firstMicroState]

/-- An accepted CONFIGURE is inside the contract of its operands. -/
theorem Channel.latchConfigure_inv (h : ChannelInv cfg ext c) {d p r : Word}
    (hok : dutyOk d = true ∧ rateOk r = true ∧ periodOk p r = true) :
    ChannelInv cfg ext { c with
      seq := { latch c.seq .configure .normal with dutyNs := d, periodNs := p, rateHz := r } } := by
  have hlast := h.lastRange
  exact .ofConfigureAt h.clkMasked h.cntMasked hlast rfl {
    opLatched := rfl, contract := hok, periodNonneg := nofun, clockFirst := nofun, x0Read := nofun, x0Masked := nofun
    quiesced := nofun, periodTicks := nofun, yRead := nofun, clkWritten := nofun, thresholds := nofun
    intervalWritten := nofun, matchWritten := nofun }

end

/-! ## Every step -/

/-- Whatever a move does to a channel, it keeps the channel's invariant. -/
theorem ChanCase.inv {s t : State} {ch : Chan} (h : ChanCase s t ch) (hs : s.Inv) :
    ChannelInv s.cfg (s.cfg.extClk.get ch) (t.chan ch) := by
  have hc := hs.chanOk ch
  have hw := hs.cfgOk
  cases h with
  | same h => exact h ▸ hc
  | micro h => exact h ▸ Channel.micro_inv hc hw _
  | write r v _ hb h => exact h ▸ Channel.writeReg_inv hc hb r v
  | accept op p ho _ h => exact h ▸ Channel.latch_inv hc ho p
  | acceptConfigure d p r _ hok h => exact h ▸ Channel.latchConfigure_inv hc hok
  | edge c _ _ hedge h => exact h ▸ Channel.clockEdge_inv hc hw hedge

/-- Settles O55: no move changes the parameters, and each keeps the invariant of every channel. -/
theorem invariantIsKept : Obligations.InvariantIsKept := by
  unfold Obligations.InvariantIsKept
  intro s t hs h
  obtain ⟨-, hmove⟩ := step_cases h
  have hcfg := hmove.fixed.1
  exact ⟨hcfg ▸ hs.cfgOk, fun ch => hcfg ▸ (hmove.chan ch).inv hs⟩

end Sys2Proof.Machine

/-! PROOFS. What the invariant says of a CONFIGURE (42_configure sections 3 and 4), and the lifecycle invariant
(43_lifecycle R171): it holds at reset and every step but a raw write keeps it. -/

namespace Sys2Proof.Machine

/-! ## A CONFIGURE in progress -/

section
variable {cfg : Config}

/-- The clock-control fields are not touched by the mask of implemented bits. -/
theorem clk_fields_and_mask (h : cfg.ClkOk) (w : Word) :
    psEn cfg (w &&& cfg.clkImplMask) = psEn cfg w ∧ psV cfg (w &&& cfg.clkImplMask) = psV cfg w ∧
    testBit (w &&& cfg.clkImplMask) cfg.clk.cSrc = testBit w cfg.clk.cSrc := by
  obtain ⟨-, -, -, hen, hsrc, hfield⟩ := h
  refine ⟨testBit_and_mask w hen, psV_congr fun i hlo hhi => testBit_and_mask w ?_, testBit_and_mask w hsrc⟩
  have hi := hfield (i - cfg.clk.psShift) (by omega)
  rwa [Nat.add_sub_cancel' hlo] at hi

/-- The quiesce value holds the counter. -/
theorem dis_quiesceVal (h : cfg.CntOk) (x0 : Word) : dis cfg (quiesceVal cfg x0) = true :=
  testBit_setBit_self _ (cnt_lt h (by simp [CntLayout.bits]))

/-- The restore value keeps the two disable bits of its base (42_configure R135). -/
theorem disable_bits_cntval (h : cfg.CntOk) (x0 : Word) (p : Polarity) :
    dis cfg (cntval cfg x0 p) = dis cfg x0 ∧ waveDis cfg (cntval cfg x0 p) = waveDis cfg x0 := by
  obtain ⟨⟨h1, h2, h3, h4, -, h6⟩, ⟨-, -, -, h7, -⟩, ⟨-, -, h8, -⟩, ⟨-, h9, -⟩, ⟨h10, -⟩, h11⟩ := cnt_facts h
  constructor
  · rw [dis, testBit_cntval_of_ne_wavePol h x0 p h6]
    simp [h1.symm, h2.symm, h3.symm, h4.symm, dis]
  · rw [waveDis, testBit_cntval_of_ne_wavePol h x0 p h11]
    simp [h7, h8, h9, h10, waveDis]

end

/-- The fields of the register after the restore write (42_configure R135). -/
theorem fields_of_restored {cfg : Config} (hw : cfg.WellFormed) (x0 : Word) (p : Polarity) {w : Word}
    (h : w = cntval cfg x0 p &&& cfg.cntImplMask) :
    dis cfg w = dis cfg x0 ∧ waveDis cfg w = waveDis cfg x0 ∧ int cfg w = true ∧ matchEn cfg w = true ∧
    dec cfg w = false ∧ rst cfg w = true ∧ wavePol cfg w = decide (p = .normal) := by
  have hcnt := hw.cntOk
  obtain ⟨hdis, hwave, hpol, hint, hdec, hmatch⟩ := fields_and_mask hcnt (cntval cfg x0 p)
  have hrst : rst cfg (cntval cfg x0 p &&& cfg.cntImplMask) = rst cfg (cntval cfg x0 p) :=
    field_and_mask hcnt (by simp [CntLayout.bits]) _
  obtain ⟨hdec', hint', hrst', hmatch', hpol', -⟩ := counterControlValue cfg x0 p hw
  obtain ⟨hdis', hwave'⟩ := disable_bits_cntval hcnt x0 p
  subst h
  exact ⟨hdis.trans hdis', hwave.trans hwave', hint.trans hint', hmatch.trans hmatch', hdec.trans hdec',
    hrst.trans hrst', hpol.trans hpol'⟩

/-- The other registers before the last micro-step of a CONFIGURE, by its operands (42_configure R133, R134). -/
theorem ConfigureAt.registers {cfg : Config} {ext : Bool} {c : Channel} (h : ConfigureAt cfg ext c 11)
    (hw : cfg.WellFormed) {e : Nat} (he : e = exponent (ticks c.seq.periodNs.toNat c.seq.rateHz.toNat)) :
    c.interval.toNat = ticks c.seq.periodNs.toNat c.seq.rateHz.toNat >>> e ∧
    c.match1.toNat = ticks c.seq.dutyNs.toNat c.seq.rateHz.toNat >>> e % 65536 ∧
    psEn cfg c.clkCtrl = decide (e ≠ 0) ∧ psV cfg c.clkCtrl = e - 1 ∧ c.clkCtrl.getLsbD cfg.clk.cSrc = ext := by
  obtain ⟨hpclk, hexp, hmax⟩ := h.periodTicks rfl
  obtain ⟨hdclk, hicnt, hmcnt⟩ := h.thresholds rfl
  rw [hpclk, ← he] at hexp
  obtain ⟨hen, hcode, hsrc, -⟩ := clockControlValue cfg c.seq.y _ ext hw hmax
  obtain ⟨henM, hcodeM, hsrcM⟩ := clk_fields_and_mask hw.clkOk (clkval cfg c.seq.y c.seq.e.toNat ext)
  rw [← h.clkWritten rfl] at henM hcodeM hsrcM
  rw [hexp] at henM hcodeM hen hcode
  refine ⟨?_, ?_, henM.trans hen, hcodeM.trans hcode, hsrcM.trans hsrc⟩
  · rw [h.intervalWritten rfl, hicnt, hpclk, hexp, he]
    exact thresholdValues.1 _
  · rw [h.matchWritten rfl, hmcnt, hdclk, hexp]
    exact thresholdValues.2 _ _

/-- Settles O41: the last micro-step writes the control register and leaves the others as the invariant says they are.
-/
theorem configureResultUnderInterleaving : Obligations.ConfigureResultUnderInterleaving := by
  unfold Obligations.ConfigureResultUnderInterleaving
  intro s ch hs hpc q c
  have hf := (hs.chanOk ch).configureAt hpc rfl
  have hc : c = (s.chan ch).micro s.cfg (s.cfg.extClk.get ch) (s.clkFail.get ch) := microStep_chan_self ch s
  have hpc' : (s.chan ch).seq.pc = .cWrRestore := hpc
  simp only [Channel.micro, hpc'] at hc
  clear_value c
  subst hc
  obtain ⟨hdis, hwave, hint, hmatch, hdec, hrst, hpol⟩ := fields_of_restored hs.cfgOk q.x0 (s.chan ch).pol rfl
  exact ⟨rfl, rfl, hf.clockFirst rfl, hdis, hwave, hint, hmatch, hdec, hrst, hpol, hf.registers hs.cfgOk rfl⟩

/-- Settles O42: the clock runs, and the counter is held by the quiesce value. -/
theorem quiescedCounterStandsStill : Obligations.QuiescedCounterStandsStill := by
  unfold Obligations.QuiescedCounterStandsStill
  intro s ch hs hq
  have hcnt := hs.cfgOk.cntOk
  have hc := hs.chanOk ch
  have hon := hc.clockFirst (.inl ⟨hq.1, le_trans (by decide) hq.2⟩)
  obtain ⟨hsame, -⟩ := fields_of_sameButRst hcnt (hc.quiesced hq)
  have hdis : dis s.cfg (s.chan ch).cntCtrl = true := hsame.trans (dis_quiesceVal hcnt _)
  cases hr : rst s.cfg (s.chan ch).cntCtrl with
  | false =>
    refine ⟨_, exec_edge_of_clockEdge_some hon (Channel.clockEdge_of_dis hr hdis), fun _ => ?_, nofun⟩
    exact s.chans.set_get ch
  | true =>
    obtain ⟨t, ht, -, hchan⟩ := exec_edge_chan hon (Channel.clockEdge_of_rst hr)
    refine ⟨t, ht, nofun, fun _ => ?_⟩
    rw [hchan]
    exact ⟨rfl, rfl⟩

/-! ## The lifecycle facts, by micro-state -/

/-- Up to the first write of a command, and at an idle channel, `CNT_CTRL` goes with the phase. -/
def MicroState.settled : MicroState → Bool
  | .cCalcP | .cRdClk | .cWrClk | .cCalcD | .cWrInt | .cWrM1 | .cWrRestore | .dClkoff => false
  | _ => true

/-- In CONFIGURE past the quiesce write, `X0` goes with the phase instead. -/
def MicroState.reconfiguring : MicroState → Bool
  | .cCalcP | .cRdClk | .cWrClk | .cCalcD | .cWrInt | .cWrM1 | .cWrRestore => true
  | _ => false

/-- Up to the clock-enable handshake of a command, the clock gate goes with the phase. -/
def MicroState.clockSettled : MicroState → Bool
  | .cRdCnt | .cWrQuiesce | .cCalcP | .cRdClk | .cWrClk | .cCalcD | .cWrInt | .cWrM1 | .cWrRestore => false
  | .eRd | .eWr => false
  | _ => true

/-- Up to CONFIGURE's write of it, `INTERVAL` holds the last-applied interval. -/
def MicroState.intervalSettled : MicroState → Bool
  | .cWrM1 | .cWrRestore => false
  | _ => true

/-- Up to CONFIGURE's write of it, `MATCH1` holds the last-applied match. -/
def MicroState.matchSettled : MicroState → Bool
  | .cWrRestore => false
  | _ => true

/-- The lifecycle invariant with its conditions as functions of the micro-state, which compute: a fact that a micro-step
does not touch is the same proposition before and after it. -/
structure LifecycleAt (cfg : Config) (c : Channel) (pc : MicroState) : Prop where
  settled : pc.settled → PhaseMatches cfg c.phase c.cntCtrl
  reconfiguring : pc.reconfiguring → PhaseMatches cfg c.phase c.seq.x0
  clock : pc.clockSettled → (c.phase = .disabled ↔ c.clkOn = false)
  modeKept : ∀ a, c.last = some a → PwmMode cfg c.cntCtrl
  intervalKept : ∀ a, c.last = some a → pc.intervalSettled → c.interval = a.intervalCount
  matchKept : ∀ a, c.last = some a → pc.matchSettled → c.match1 = a.matchCount

/-- The conditions of the invariant are those functions. -/
theorem MicroState.lifecycle_conditions (q : Seq) :
    (q.pc.settled = true ↔ ¬q.ConfigureFrom 5 ∧ q.pc ≠ .dClkoff) ∧ (q.pc.reconfiguring = true ↔ q.ConfigureFrom 5) ∧
    (q.pc.clockSettled = true ↔ ¬q.ConfigureFrom 3 ∧ q.pc ≠ .eRd ∧ q.pc ≠ .eWr) ∧
    (q.pc.intervalSettled = true ↔ ¬q.ConfigureFrom 10) ∧ (q.pc.matchSettled = true ↔ ¬q.ConfigureFrom 11) := by
  unfold Seq.ConfigureFrom
  cases q.pc <;> decide

theorem lifecycleInv_iff (cfg : Config) (c : Channel) : LifecycleInv cfg c ↔ LifecycleAt cfg c c.seq.pc := by
  obtain ⟨hset, hrec, hclk, hint, hmat⟩ := MicroState.lifecycle_conditions c.seq
  constructor
  · exact fun h => ⟨fun hp => have ⟨h5, hoff⟩ := hset.mp hp; h.settled h5 hoff, fun hp => h.reconfiguring (hrec.mp hp),
      fun hp => have ⟨h3, hr, hw⟩ := hclk.mp hp; h.clock h3 hr hw, h.modeKept,
      fun a ha hp => h.intervalKept a ha (hint.mp hp), fun a ha hp => h.matchKept a ha (hmat.mp hp)⟩
  · exact fun h => ⟨fun h5 hoff => h.settled (hset.mpr ⟨h5, hoff⟩), fun h5 => h.reconfiguring (hrec.mpr h5),
      fun h3 hr hw => h.clock (hclk.mpr ⟨h3, hr, hw⟩), h.modeKept,
      fun a ha h10 => h.intervalKept a ha (hint.mpr h10), fun a ha h11 => h.matchKept a ha (hmat.mpr h11)⟩

/-! ## Phase and mode of the values a command writes -/

/-- Two values with the same disable bits go with the same phase. -/
theorem phaseMatches_congr {cfg : Config} {p : Phase} {v w : Word} (hd : dis cfg v = dis cfg w)
    (hw : waveDis cfg v = waveDis cfg w) :
    PhaseMatches cfg p v ↔ PhaseMatches cfg p w := by
  unfold PhaseMatches Running Stopped
  rw [hd, hw]

section
variable {cfg : Config} (h : cfg.CntOk)
include h

/-- The mode bits are none of `DIS`, `WAVE_DIS` and `RST`: values that agree elsewhere are in the same mode. -/
theorem pwmMode_congr {v w : Word}
    (hs : ∀ i, i ≠ cfg.cnt.dis → i ≠ cfg.cnt.waveDis → i ≠ cfg.cnt.rst → testBit v i = testBit w i) :
    PwmMode cfg v ↔ PwmMode cfg w := by
  obtain ⟨⟨h1, h2, h3, -, -, -⟩, ⟨-, -, h4, h5, -⟩, ⟨-, h6, h7, -⟩, ⟨h8, h9, -⟩, -⟩ := cnt_facts h
  unfold PwmMode int matchEn dec
  rw [hs _ h1.symm h5 h4, hs _ h3.symm h9 h8, hs _ h2.symm h7 h6]

theorem pwmMode_and_mask (v : Word) : PwmMode cfg (v &&& cfg.cntImplMask) ↔ PwmMode cfg v := by
  obtain ⟨-, -, -, hint, hdec, hmatch⟩ := fields_and_mask h v
  unfold PwmMode
  rw [hint, hdec, hmatch]

theorem pwmMode_of_sameButRst {v w : Word} (hs : SameButRst cfg v w) : PwmMode cfg v ↔ PwmMode cfg w :=
  pwmMode_congr h fun i _ _ hi => (clearBit_eq_iff _ _ _).mp hs i hi

theorem pwmMode_quiesceVal (v : Word) : PwmMode cfg (quiesceVal cfg v) ↔ PwmMode cfg v :=
  pwmMode_congr h fun _ hi _ _ => testBit_setBit_ne v hi.symm

theorem pwmMode_enableVal (v : Word) : PwmMode cfg (enableVal cfg v) ↔ PwmMode cfg v :=
  pwmMode_congr h fun _ hi hw hr => by
    rw [enableVal, testBit_setBit_ne _ hr.symm, testBit_clearBit_ne _ hw.symm, testBit_clearBit_ne _ hi.symm]

theorem pwmMode_disableVal (v : Word) : PwmMode cfg (disableVal cfg v) ↔ PwmMode cfg v :=
  pwmMode_congr h fun _ hi hw _ => by
    rw [disableVal, testBit_setBit_ne _ hw.symm, testBit_setBit_ne _ hi.symm]

/-- The value ENABLE stores has both disable bits clear. -/
theorem running_enableVal (v : Word) : Running cfg (enableVal cfg v &&& cfg.cntImplMask) := by
  obtain ⟨hdis, hwave, -⟩ := fields_and_mask h (enableVal cfg v)
  obtain ⟨⟨-, -, -, hdr, hdw, -⟩, -, -, -, ⟨hrw, -⟩, -⟩ := cnt_facts h
  constructor
  · rw [hdis, dis, enableVal, testBit_setBit_ne _ hdr.symm, testBit_clearBit_ne _ hdw.symm, testBit_clearBit_self]
  · rw [hwave, waveDis, enableVal, testBit_setBit_ne _ hrw, testBit_clearBit_self]

end

/-! ## The moves of one channel -/

section
variable {cfg : Config} {ext : Bool} {c : Channel}

/-- A micro-step keeps the lifecycle invariant. -/
theorem Channel.micro_lifecycle (h : ChannelInv cfg ext c) (hl : LifecycleInv cfg c) (hw : cfg.WellFormed)
    (fail : Bool) : LifecycleInv cfg (c.micro cfg ext fail) := by
  have hcnt := hw.cntOk
  have hf := (lifecycleInv_iff cfg c).mp hl
  rw [lifecycleInv_iff]
  cases hpc : c.seq.pc <;> simp only [Channel.micro, hpc] <;> rw [hpc] at hf
  case idle => exact hf
  case cCheck => split <;> exact { hf with }
  case cClk | eClk =>
    split
    · exact { hf with }
    · exact { hf with clock := nofun }
  case cRdCnt => exact { hf with reconfiguring := nofun }
  case cWrQuiesce =>
    have hx0 := (h.configureAt hpc rfl).x0Masked rfl
    have hread := (h.configureAt hpc rfl).x0Read rfl
    obtain ⟨hdis, hwave, -⟩ := fields_of_sameButRst hcnt hread
    rw [quiesceVal_and_mask hcnt hx0]
    exact { hf with
      settled := nofun
      reconfiguring := fun _ => (phaseMatches_congr hdis hwave).mpr (hf.settled rfl)
      modeKept := fun a ha =>
        (pwmMode_quiesceVal hcnt _).mpr ((pwmMode_of_sameButRst hcnt hread).mpr (hf.modeKept a ha)) }
  case cCalcP | cRdClk | cWrClk | cCalcD | eRd | dRd | pSet => exact { hf with }
  case cWrInt => exact { hf with intervalKept := nofun }
  case cWrM1 => exact { hf with matchKept := nofun }
  case cWrRestore =>
    have hconf := h.configureAt hpc rfl
    have hon := hconf.clockFirst rfl
    obtain ⟨hdis, hwave, hint, hmatch, hdec, -⟩ := fields_of_restored hw c.seq.x0 c.pol rfl
    have hphase : PhaseMatches cfg (configuredPhase c.phase) c.seq.x0 := by
      have := hf.reconfiguring rfl
      cases hp : c.phase <;> rw [hp] at this <;> exact this
    have hne : configuredPhase c.phase ≠ .disabled := by cases c.phase <;> decide
    exact {
      settled := fun _ => (phaseMatches_congr hdis hwave).mpr hphase
      reconfiguring := nofun
      clock := fun _ => by simp [hne, hon]
      modeKept := fun _ _ => ⟨hint, hmatch, hdec⟩
      intervalKept := fun a ha _ => Option.some.inj ha ▸ hconf.intervalWritten rfl
      matchKept := fun a ha _ => Option.some.inj ha ▸ hconf.matchWritten rfl }
  case eWr =>
    have hon := h.clockFirst (.inr (.inr hpc))
    exact { hf with
      settled := fun _ => running_enableVal hcnt _
      reconfiguring := nofun
      clock := fun _ => by simp [hon]
      modeKept := fun a ha => (pwmMode_and_mask hcnt _).mpr ((pwmMode_enableVal hcnt _).mpr
        ((pwmMode_of_sameButRst hcnt (h.xRead (.inl hpc))).mpr (hf.modeKept a ha))) }
  case dWr =>
    exact { hf with
      settled := nofun
      modeKept := fun a ha => (pwmMode_and_mask hcnt _).mpr ((pwmMode_disableVal hcnt _).mpr
        ((pwmMode_of_sameButRst hcnt (h.xRead (.inr hpc))).mpr (hf.modeKept a ha))) }
  case dClkoff =>
    exact { hf with
      settled := fun _ => h.writtenBeforeClockOff hpc
      reconfiguring := nofun
      clock := fun _ => by simp }

/-- A clock edge writes no bit that the lifecycle speaks of. -/
theorem Channel.clockEdge_lifecycle {c' : Channel} (hl : LifecycleInv cfg c) (hw : cfg.WellFormed)
    (hc : c.clockEdge cfg = some c') : LifecycleInv cfg c' := by
  have hcnt := hw.cntOk
  obtain ⟨k, p, a, w, rfl, hw⟩ := Channel.clockEdge_frame hc
  have hsame := sameButRst_of_edge hw
  obtain ⟨hdis, hwave, -⟩ := fields_of_sameButRst hcnt hsame
  exact { hl with
    settled := fun h5 hoff => (phaseMatches_congr hdis hwave).mpr (hl.settled h5 hoff)
    modeKept := fun a ha => (pwmMode_of_sameButRst hcnt hsame).mpr (hl.modeKept a ha) }

/-- A command accepted on an idle channel starts with the facts of the idle channel. -/
theorem Channel.accept_lifecycle (hl : LifecycleInv cfg c) (hb : c.seq.pc = .idle) {q : Seq} {op : Command}
    (hq : q.pc = firstMicroState op) : LifecycleInv cfg { c with seq := q } := by
  have hf := (lifecycleInv_iff cfg c).mp hl
  rw [hb] at hf
  rw [lifecycleInv_iff, hq]
  cases op <;> exact { hf with reconfiguring := nofun }

end

/-! ## Every step but a raw write -/

/-- Whatever a move but a raw write does to a channel, it keeps the channel's lifecycle invariant. -/
theorem ChanCase.lifecycle {s t : State} {ch : Chan} (h : ChanCase s t ch) (hs : s.Inv) (hl : s.Lifecycle)
    (hno : s.NoRawWrite) : LifecycleInv s.cfg (t.chan ch) := by
  have hc := hl ch
  have hw := hs.cfgOk
  cases h with
  | same h => exact h ▸ hc
  | micro h => exact h ▸ Channel.micro_lifecycle (hs.chanOk ch) hc hw _
  | write r v hf _ h => exact absurd hf (hno _ _ _)
  | accept op p _ hb h => exact h ▸ Channel.accept_lifecycle hc hb rfl
  | acceptConfigure d p r hb _ h => exact h ▸ Channel.accept_lifecycle (op := .configure) hc hb rfl
  | edge c _ _ hedge h => exact h ▸ Channel.clockEdge_lifecycle hc hw hedge

/-- Settles O57: no move changes the parameters, and each but a raw write keeps the lifecycle of every channel. -/
theorem lifecycleIsKept : Obligations.LifecycleIsKept := by
  unfold Obligations.LifecycleIsKept
  intro s t hs hl hno h ch
  obtain ⟨-, hmove⟩ := step_cases h
  rw [hmove.fixed.1]
  exact (hmove.chan ch).lifecycle hs hl hno

/-! ## Reset, and an idle channel -/

/-- The reset channel is stopped, unclocked and `Disabled`, and has applied nothing. -/
theorem Channel.reset_lifecycle {cfg : Config} (h : cfg.CntOk) : LifecycleInv cfg (Channel.reset cfg) := by
  rw [lifecycleInv_iff]
  exact {
    settled := fun _ => stopped_disableVal h 0
    reconfiguring := nofun
    clock := fun _ => by simp [Channel.reset]
    modeKept := nofun
    intervalKept := nofun
    matchKept := nofun }

/-- At an idle channel every condition of the invariant holds; running and stopped exclude each other. -/
theorem LifecycleInv.idleFacts {cfg : Config} {c : Channel} (hl : LifecycleInv cfg c) (hb : c.seq.pc = .idle) :
    IdleFacts cfg c := by
  have hf := (lifecycleInv_iff cfg c).mp hl
  rw [hb] at hf
  have hsettled : PhaseMatches cfg c.phase c.cntCtrl := hf.settled rfl
  have hexcl : Running cfg c.cntCtrl → ¬Stopped cfg c.cntCtrl :=
    fun ⟨hrun, _⟩ ⟨hstop, _⟩ => Bool.false_ne_true (hrun.symm.trans hstop)
  have happlied (a : Applied) (ha : c.last = some a) :
      PwmMode cfg c.cntCtrl ∧ c.interval = a.intervalCount ∧ c.match1 = a.matchCount :=
    ⟨hf.modeKept a ha, hf.intervalKept a ha rfl, hf.matchKept a ha rfl⟩
  by_cases hp : c.phase = .enabled
  · have hr : Running cfg c.cntCtrl := by rwa [PhaseMatches, if_pos hp] at hsettled
    have hne : ¬(c.phase = .disabled ∨ c.phase = .configured) := by simp [hp]
    exact ⟨iff_of_true hp hr, iff_of_false hne (hexcl hr), hf.clock rfl, happlied⟩
  · have hst : Stopped cfg c.cntCtrl := by rwa [PhaseMatches, if_neg hp] at hsettled
    have hor : c.phase = .disabled ∨ c.phase = .configured := by cases h : c.phase <;> simp_all
    exact ⟨iff_of_false hp fun hr => hexcl hr hst, iff_of_true hor hst, hf.clock rfl, happlied⟩

/-- Settles O58: the reset channel, and the invariant at micro-state `IDLE`. -/
theorem lifecycleAtResetAndIdle : Obligations.LifecycleAtResetAndIdle := by
  unfold Obligations.LifecycleAtResetAndIdle
  refine ⟨fun cfg hw ch => ?_, fun s ch hl hb => (hl ch).idleFacts (State.busy_eq_false.mp hb)⟩
  rw [State.chan_resetWith]
  exact Channel.reset_lifecycle hw.cntOk

end Sys2Proof.Machine
